-- ==== Sys2Proof/Word.lean ====
section
/-! DEFINITION. The byte and the frame, the only two units of data the block handles
(20_memory.md R51, R55; 30_encoding.md R71). -/

namespace Sys2Proof

/-- A byte, bit 7 its most significant bit (00_scope.md R9). -/
abbrev Byte := BitVec 8

/-- The 16-bit unsigned value operand (00_scope.md R7 `VAL_W`). -/
abbrev Value := BitVec 16

/-- A frame: exactly 4 bytes, `b0` first (20_memory.md R51, 30_encoding.md R71). -/
structure Frame where
  b0 : Byte
  b1 : Byte
  b2 : Byte
  b3 : Byte
deriving DecidableEq, Repr, Inhabited

end Sys2Proof
end

