-- ==== Sys2Proof/Syntax.lean ====
section
/-! DEFINITION. The requests of the request port (10_state.md R30), one constructor of `Instr` per row
of spec/opcode_table.json, and the operand types they carry. -/

namespace Sys2Proof

/-- The nine command kinds (30_encoding.md R79). -/
inductive CommandKind where
  | writeInput
  | updateDac
  | writeInputUpdateAll
  | writeUpdateChannel
  | powerControl
  | loadClearCode
  | loadLdac
  | reset
  | internalRef
deriving DecidableEq, Repr, Inhabited

/-- The nine channel addresses, eight channels and broadcast (30_encoding.md R80). -/
inductive Channel where
  | dacA
  | dacB
  | dacC
  | dacD
  | dacE
  | dacF
  | dacG
  | dacH
  | allDacs
deriving DecidableEq, Repr, Inhabited

/-- A bus-write capability, a handle on the transport (00_scope.md R13, "Capability").
DESIGN CHOICE (log 4): a handle is a number; nothing computes with it. -/
structure BusCap where
  handle : Nat
deriving DecidableEq, Repr, Inhabited

/-- A chip-select capability, a handle on the line (00_scope.md R13, "Capability").
DESIGN CHOICE (log 4): a handle is a number; nothing computes with it. -/
structure PinCap where
  handle : Nat
deriving DecidableEq, Repr, Inhabited

/-- The seven per-command requests by name (10_state.md R30, 41_framer.md R131). -/
inductive PerCommand where
  | writeInputRegister
  | updateDacRegister
  | writeInputUpdateAll
  | writeAndUpdateChannel
  | enableInternalReference
  | disableInternalReference
  | reset
deriving DecidableEq, Repr, Inhabited

/-- The framer requests by name: what a `Resp` event records (10_state.md R28). -/
inductive FramerOp where
  | init
  | command (op : PerCommand)
  | release
deriving DecidableEq, Repr, Inhabited

/-- A request (10_state.md R30): one constructor per row of spec/opcode_table.json. Kind and channel
operands are typed, so a value outside their sets cannot be written (30_encoding.md R83, R84). -/
inductive Instr where
  /-- `write_input_register` (41_framer.md R138). -/
  | writeInputRegister (a : Channel) (v : Value)
  /-- `update_dac_register` (41_framer.md R139). -/
  | updateDacRegister (a : Channel) (v : Value)
  /-- `write_input_update_all` (41_framer.md R140). -/
  | writeInputUpdateAll (a : Channel) (v : Value)
  /-- `write_and_update_channel` (41_framer.md R141). -/
  | writeAndUpdateChannel (a : Channel) (v : Value)
  /-- `encode.PowerControl` (40_codec.md R109). -/
  | encodePowerControl (a : Channel) (v : Value)
  /-- `encode.LoadClearCode` (40_codec.md R110). -/
  | encodeLoadClearCode (a : Channel) (v : Value)
  /-- `encode.LoadLdac` (40_codec.md R111). -/
  | encodeLoadLdac (a : Channel) (v : Value)
  /-- `reset`, the device command (41_framer.md R144; 70_reset_and_hazards.md R202). -/
  | reset
  /-- `encode.Reset` (40_codec.md R112). -/
  | encodeReset (a : Channel) (v : Value)
  /-- `enable_internal_reference` (41_framer.md R142). -/
  | enableInternalReference
  /-- `disable_internal_reference` (41_framer.md R143). -/
  | disableInternalReference
  /-- `encode.InternalRef` (40_codec.md R113). -/
  | encodeInternalRef (a : Channel) (v : Value)
  /-- `init(bus, pin)` (41_framer.md R130). -/
  | init (bus : BusCap) (pin : PinCap)
  /-- `release` (41_framer.md R145). -/
  | release
  /-- `encode(k, a, v)` (40_codec.md R100; 41_framer.md R146). -/
  | encode (k : CommandKind) (a : Channel) (v : Value)
deriving DecidableEq, Repr, Inhabited

end Sys2Proof
end

