-- ==== Sys2Proof/Machine/Operands.lean ====
section
/-! DEFINITION. Operand forms: the opcode and channel codes, the split of the value, the two frame
formats and the 32-bit word view (30_encoding.md R72 to R82, 20_memory.md R52, R53). -/

namespace Sys2Proof

/-- `OPC(k)`, the opcode of a command kind (30_encoding.md R79; 1, 2, 4, 5, 6 by decision D1, log 1). -/
def CommandKind.opc : CommandKind → BitVec 4
  | .writeInput => 0x0#4
  | .updateDac => 0x1#4
  | .writeInputUpdateAll => 0x2#4
  | .writeUpdateChannel => 0x3#4
  | .powerControl => 0x4#4
  | .loadClearCode => 0x5#4
  | .loadLdac => 0x6#4
  | .reset => 0x7#4
  | .internalRef => 0x8#4

/-- `CHAN(a)`, the address code of a channel (30_encoding.md R80; B to H by decision D2, log 1). -/
def Channel.code : Channel → BitVec 4
  | .dacA => 0x0#4
  | .dacB => 0x1#4
  | .dacC => 0x2#4
  | .dacD => 0x3#4
  | .dacE => 0x4#4
  | .dacF => 0x5#4
  | .dacG => 0x6#4
  | .dacH => 0x7#4
  | .allDacs => 0xF#4

/-- The command kinds, in the order of 30_encoding.md R79. -/
def CommandKind.all : List CommandKind :=
  [.writeInput, .updateDac, .writeInputUpdateAll, .writeUpdateChannel, .powerControl,
   .loadClearCode, .loadLdac, .reset, .internalRef]

/-- The channels, in the order of 30_encoding.md R80. -/
def Channel.all : List Channel :=
  [.dacA, .dacB, .dacC, .dacD, .dacE, .dacF, .dacG, .dacH, .allDacs]

/-- `OPC⁻¹` (30_encoding.md R87): the kind of an opcode, none for the codes of R83. -/
def CommandKind.ofOpc? (c : BitVec 4) : Option CommandKind :=
  CommandKind.all.find? (fun k => k.opc == c)

/-- `CHAN⁻¹` (30_encoding.md R87): the channel of an address code, none for the codes of R84. -/
def Channel.ofCode? (c : BitVec 4) : Option Channel :=
  Channel.all.find? (fun a => a.code == c)

/-- The high nibble of a byte, `b[7:4]` (00_scope.md R9). -/
def hiNibble (b : Byte) : BitVec 4 := b.extractLsb' 4 4

/-- The low nibble of a byte, `b[3:0]` (00_scope.md R9). -/
def loNibble (b : Byte) : BitVec 4 := b.extractLsb' 0 4

/-- The format G frame: opcode, address code and the value's three pieces
(30_encoding.md R72 to R76, R81; 40_codec.md R100). -/
def encodeFrame (k : CommandKind) (a : Channel) (v : Value) : Frame where
  b0 := k.opc.zeroExtend 8
  b1 := a.code ++ v.extractLsb' 12 4
  b2 := v.extractLsb' 4 8
  b3 := v.extractLsb' 0 4 ++ 0#4

/-- The fixed frame of `reset()` (30_encoding.md R78). -/
def resetFrame : Frame := ⟨0x07#8, 0x00#8, 0x00#8, 0x00#8⟩

/-- The fixed frame of `enable_internal_reference()` (30_encoding.md R78). -/
def enableRefFrame : Frame := ⟨0x08#8, 0x00#8, 0x00#8, 0x01#8⟩

/-- The fixed frame of `disable_internal_reference()` (30_encoding.md R78). -/
def disableRefFrame : Frame := ⟨0x08#8, 0x00#8, 0x00#8, 0x00#8⟩

/-- The opcode field `b0[3:0]` (30_encoding.md R73). -/
def Frame.opcodeField (f : Frame) : BitVec 4 := loNibble f.b0

/-- The address field `b1[7:4]` (30_encoding.md R74). -/
def Frame.addressField (f : Frame) : BitVec 4 := hiNibble f.b1

/-- The value field: `v[15:12]` in `b1[3:0]`, `v[11:4]` in `b2`, `v[3:0]` in `b3[7:4]`
(20_memory.md R52, 30_encoding.md R87). -/
def Frame.valueField (f : Frame) : Value := loNibble f.b1 ++ f.b2 ++ hiNibble f.b3

/-- The frame as the ordered byte sequence handed to the transport (20_memory.md R51). -/
def Frame.bytes (f : Frame) : List Byte := [f.b0, f.b1, f.b2, f.b3]

/-- The word view `W`, `b0` its most significant byte (20_memory.md R53). -/
def Frame.word (f : Frame) : BitVec 32 := f.b0 ++ f.b1 ++ f.b2 ++ f.b3

/-- The frame of a word, the inverse of `Frame.word` (20_memory.md R53). -/
def Frame.ofWord (w : BitVec 32) : Frame where
  b0 := w.extractLsb' 24 8
  b1 := w.extractLsb' 16 8
  b2 := w.extractLsb' 8 8
  b3 := w.extractLsb' 0 8

end Sys2Proof
end

