-- ==== Sys2Proof/Config.lean ====
section
/-! DEFINITION. What the block sees of its two external collaborators (10_state.md R32, R33), the
parameters of 00_scope.md R7, and the free values: constants without a body, so that no proof can
lean on what they are. -/

namespace Sys2Proof

/-- A level of the chip-select line (10_state.md R29). -/
inductive Level where
  | high
  | low
deriving DecidableEq, Repr, Inhabited

/-- What the model needs of an error type the spec leaves open, and nothing more: equality that can be
decided and a way to be written out, both only because `State` is plain data, and errors to name, because
a write and a pin call may fail (10_state.md R32, R33). Two names may stand for one error and an error
may have no name. DEDUCED (log 3). -/
structure ErrorType where
  Carrier : Type
  decEq : DecidableEq Carrier
  repr : Repr Carrier
  named : Nat → Carrier

/-- An error of an open type: a value that is passed on or discarded, never inspected. -/
structure ErrorOf (T : ErrorType) [DecidableEq T.Carrier] [Repr T.Carrier] where
  value : T.Carrier
deriving DecidableEq, Repr

namespace Config

/-- `BusErr` as a parameter of the model (00_scope.md R7, 93_implementation_defined.md I12), `none` standing
for errors that are numbers. OPEN: no body, so that no proof can lean on which type it is (log 3). -/
opaque busErrors : Option ErrorType

/-- `PinErr` as a parameter of the model (00_scope.md R7, 93_implementation_defined.md I12), `none` standing
for errors that are numbers. OPEN: no body, so that no proof can lean on which type it is (log 3). -/
opaque pinErrors : Option ErrorType

/-- The type an `OPEN` parameter stands for. -/
def errorType (parameter : Option ErrorType) : ErrorType :=
  parameter.getD { Carrier := Nat, decEq := inferInstance, repr := inferInstance, named := id }

end Config

/-- `BusErr`, the transport's own error value: an opaque type, passed verbatim (00_scope.md R7,
60_exceptions.md R170). -/
abbrev BusErr : Type :=
  @ErrorOf (Config.errorType Config.busErrors) (Config.errorType Config.busErrors).decEq
    (Config.errorType Config.busErrors).repr

/-- `PinErr`, the line's own error value: an opaque type, always discarded (00_scope.md R7,
60_exceptions.md R171). -/
abbrev PinErr : Type :=
  @ErrorOf (Config.errorType Config.pinErrors) (Config.errorType Config.pinErrors).decEq
    (Config.errorType Config.pinErrors).repr

/-- The bus error of a given name. -/
def Config.busError (name : Nat) : BusErr :=
  @ErrorOf.mk _ (_) (_) ((Config.errorType Config.busErrors).named name)

/-- The pin error of a given name. -/
def Config.pinError (name : Nat) : PinErr :=
  @ErrorOf.mk _ (_) (_) ((Config.errorType Config.pinErrors).named name)

/-- What a call to the chip-select capability returns (10_state.md R33). -/
inductive PinResult where
  | ok
  | err (p : PinErr)
deriving DecidableEq, Repr, Inhabited

/-- What a call to the bus capability returns, when it returns (10_state.md R32). -/
inductive BusResult where
  | ok
  | err (e : BusErr)
deriving DecidableEq, Repr, Inhabited

/-- The outcome of a bus call: a result, or no return at all (10_state.md R32, 41_framer.md R135). -/
inductive BusAnswer where
  | returns (r : BusResult)
  | never
deriving DecidableEq, Repr, Inhabited

namespace Config

/-- `P_PinOracle` (00_scope.md R7): the result of the pin call numbered `n`. FREE VALUE (log 5). -/
opaque pinOracle : Nat → PinResult

/-- `P_BusOracle` (00_scope.md R7): the outcome of the bus call numbered `n`. FREE VALUE (log 5). -/
opaque busOracle : Nat → BusAnswer

/-- `P_LevelAfterPinErr` (00_scope.md R7, 92_eei_decisions.md D4): the level the line takes when the pin
call numbered `n` fails. FREE VALUE (log 6). -/
opaque levelOracle : Nat → Level

/-- The line level before the first INIT, "whatever the platform left"
(70_reset_and_hazards.md R201, 10_state.md R29). FREE VALUE (log 6). -/
opaque launchLevel : Level

/-- What `frameReg` holds outside a framed write (10_state.md R27, I16). FREE VALUE (log 7). -/
opaque staleFrame : Nat → Frame

/-- What `wres` holds outside a framed write (10_state.md R27, I16). FREE VALUE (log 7). -/
opaque staleResult : Nat → BusResult

end Config

end Sys2Proof
end

