-- ==== Sys2Proof/Machine/State.lean ====
section
/-! DEFINITION. The machine's state as plain data (10_state.md R25 to R29, R37), its events and responses,
its fault and refusal types, and the state at reset. -/

namespace Sys2Proof.Machine

/-- Ownership state (10_state.md R25). `owned` carries the two capabilities the block "exclusively owns",
which RELEASE returns (41_framer.md R145). -/
inductive Ownership where
  /-- Before the first INIT. -/
  | unconstructed
  /-- From INIT until RELEASE. -/
  | owned (bus : BusCap) (pin : PinCap)
  /-- After RELEASE has returned both capabilities. -/
  | released
deriving DecidableEq, Repr, Inhabited

/-- Framer phase (10_state.md R26), meaningful when the block is owned. -/
inductive Phase where
  | idle
  | assert
  | write
  | deassert
deriving DecidableEq, Repr, Inhabited

/-- The response to a framer request (10_state.md R30, R31). -/
inductive FramerResult where
  | ok
  /-- The bus's write error, verbatim (60_exceptions.md R170). -/
  | err (e : BusErr)
  /-- The two capabilities, given back by RELEASE (41_framer.md R145). -/
  | caps (bus : BusCap) (pin : PinCap)
deriving DecidableEq, Repr, Inhabited

/-- An event of the trace (10_state.md R28). -/
inductive Event where
  /-- A call to the chip-select capability, with its result. -/
  | pin (level : Level) (result : PinResult)
  /-- A call to the bus capability, with its result. -/
  | bus (frame : Frame) (result : BusResult)
  /-- The response to a framer request. -/
  | resp (op : FramerOp) (result : FramerResult)
deriving DecidableEq, Repr, Inhabited

/-- What the response port carries (10_state.md R31). -/
inductive Response where
  /-- The response to a framer request. -/
  | framer (op : FramerOp) (result : FramerResult)
  /-- The answer to an ENCODE request (41_framer.md R146). -/
  | frame (f : Frame)
deriving DecidableEq, Repr, Inhabited

/-- One slot of what the requester offers at the request port: nothing, a typed request, or the bytes of
an opcode-table row (10_state.md R30, 30_encoding.md R70; DESIGN CHOICE, log 10, log 11). -/
inductive Arrival where
  | quiet
  | term (i : Instr)
  | bytes (bs : List Byte)
deriving DecidableEq, Repr, Inhabited

/-- The state of the machine. The fields up to `refused` are the spec's; `opReg` and `resp` are implied by
its pseudocode and its response port; the rest are the model's inputs and its counter of free values. -/
structure State where
  /-- Ownership state (10_state.md R25). -/
  own : Ownership
  /-- Framer phase (10_state.md R26). -/
  phase : Phase
  /-- The latched frame (10_state.md R27). -/
  frameReg : Frame
  /-- The latched bus result (10_state.md R27). -/
  wres : BusResult
  /-- The event trace, oldest first (10_state.md R28). -/
  trace : List Event
  /-- The chip-select line level (10_state.md R29). -/
  cs : Level
  /-- The refused mark, set and never cleared (41_framer.md R147). -/
  refused : Bool
  /-- The per-command request in progress, the `op` of 41_framer.md R133 (log 8). -/
  opReg : PerCommand
  /-- The response given in the last step, if any (10_state.md R31; log 13). -/
  resp : Option Response
  /-- What the requester offers, one slot per step (input; log 10). -/
  arrivals : List Arrival
  /-- What the coming pin calls return (input; log 5). -/
  pinAnswers : List PinResult
  /-- The levels the line takes after coming failed pin calls (input; log 6). -/
  levelAnswers : List Level
  /-- What the coming bus calls answer (input; log 5). -/
  busAnswers : List BusAnswer
  /-- How many free values have been drawn (log 5). -/
  draws : Nat
deriving DecidableEq, Repr

/-- The machine's faults: none. "The block raises no synchronous exception, trap or fault of its own"
(60_exceptions.md R172; log 20). -/
inductive Fault
deriving DecidableEq, Repr

/-- The machine's refusals. The spec's own refusal of a request is a next state with the refused mark set
(41_framer.md R147), not one of these. -/
inductive Refusal where
  /-- Raised only by an arm of `exec` whose instruction has no meaning yet (safe); no arm is left so. -/
  | notModelled (mnemonic : String)
deriving DecidableEq, Repr

/-- The machine before the first INIT (10_state.md R37, left column). `cs` is drawn (log 6); `phase`,
`frameReg`, `wres` and `opReg` are unspecified there and named here (DESIGN CHOICE, log 8); no input is
given, so every external answer is a free value (log 5). -/
def State.reset : State where
  own := .unconstructed
  phase := .idle
  frameReg := ⟨0x00#8, 0x00#8, 0x00#8, 0x00#8⟩
  wres := .ok
  trace := []
  cs := Config.launchLevel
  refused := false
  opReg := .writeInputRegister
  resp := none
  arrivals := []
  pinAnswers := []
  levelAnswers := []
  busAnswers := []
  draws := 0

end Sys2Proof.Machine
end

