-- ==== Sys2Proof/Machine/Ops.lean ====
section
/-! DEFINITION. The shared operations over the state: the external calls, the trace, the response port,
refusal and the gate of each request. The block has no trap entry and no trap return
(60_exceptions.md R175, R176); `State.refuse` is what it does with a request it turns away. -/

namespace Sys2Proof.Machine

/-- Whether the block owns its capabilities (10_state.md R25). -/
def Ownership.isOwned : Ownership → Bool
  | .owned _ _ => true
  | .unconstructed => false
  | .released => false

/-- The result of the next pin call: the next answer of the line, else a free value
(10_state.md R33, `P_PinOracle`; log 5). -/
def State.pinDraw (s : State) : PinResult :=
  s.pinAnswers.headD (Config.pinOracle s.draws)

/-- The level the line takes if the next pin call fails: the next level given, else a free value
(10_state.md R29, `P_LevelAfterPinErr`; log 6). -/
def State.levelDraw (s : State) : Level :=
  s.levelAnswers.headD (Config.levelOracle s.draws)

/-- The outcome of the next bus call: the next answer of the transport, else a free value
(10_state.md R32, `P_BusOracle`; log 5). -/
def State.busDraw (s : State) : BusAnswer :=
  s.busAnswers.headD (Config.busOracle s.draws)

/-- The line level after a set: the level asked for if the call returned Ok, else the drawn one
(10_state.md R29). -/
def levelAfter (want : Level) (r : PinResult) (drawn : Level) : Level :=
  match r with
  | .ok => want
  | .err _ => drawn

/-- The levels still to come after a pin call: one is used up only by a failed call. -/
def levelsAfter (r : PinResult) (ls : List Level) : List Level :=
  match r with
  | .ok => ls
  | .err _ => ls.tail

/-- `PinSet(level)` followed by its `Emit` and the update of `cs` (00_scope.md R11, 10_state.md R29). The
result is in the trace and nowhere else (60_exceptions.md R171). -/
def State.pinSet (level : Level) (s : State) : State :=
  { s with
    cs := levelAfter level s.pinDraw s.levelDraw
    trace := s.trace ++ [.pin level s.pinDraw]
    pinAnswers := s.pinAnswers.tail
    levelAnswers := levelsAfter s.pinDraw s.levelAnswers
    draws := s.draws + 1 }

/-- A `BusWrite(f)` that returned `r`, followed by its `Emit` and the latch of `wres`
(00_scope.md R11, 41_framer.md R133). -/
def State.busWrite (f : Frame) (r : BusResult) (s : State) : State :=
  { s with
    wres := r
    trace := s.trace ++ [.bus f r]
    busAnswers := s.busAnswers.tail
    draws := s.draws + 1 }

/-- `Emit(Resp(op, r))` and `Respond(r)` (00_scope.md R11, 10_state.md R31). -/
def State.respond (op : FramerOp) (r : FramerResult) (s : State) : State :=
  { s with
    trace := s.trace ++ [.resp op r]
    resp := some (.framer op r) }

/-- The answer to an ENCODE request: no state and no trace event (40_codec.md R101, 41_framer.md R146). -/
def State.answerFrame (f : Frame) (s : State) : State :=
  { s with resp := some (.frame f) }

/-- Back in Idle the two latches are unspecified (10_state.md R27, R37): each becomes a free value
(log 7). -/
def State.dropLatches (s : State) : State :=
  { s with
    frameReg := Config.staleFrame s.draws
    wres := Config.staleResult s.draws
    draws := s.draws + 1 }

/-- Why a request is refused (41_framer.md R147). -/
inductive RefuseReason where
  /-- A per-command request or RELEASE without ownership (D7). -/
  | notOwned
  /-- A framer request while a framed write is in progress (D6). -/
  | reentrant
  /-- INIT while owned (D16). -/
  | initWhileOwned
  /-- A kind or channel operand outside its set (D8). -/
  | outOfSet
deriving DecidableEq, Repr

/-- `Refuse(reason)`: no call, no event, no response; the refused mark is set, whatever the reason
(41_framer.md R147; log 12). -/
def State.refuse (_reason : RefuseReason) (s : State) : State :=
  { s with refused := true }

/-- The rows of the table of 60_exceptions.md R179. -/
inductive RequestClass where
  | encode
  | init
  | perCommand
  | release
deriving DecidableEq, Repr

/-- The table of 60_exceptions.md R179: why a request of a class is refused, or none if it is answered or
accepted (41_framer.md R130, R131, R145, R146, R147). -/
def gate (c : RequestClass) (own : Ownership) (phase : Phase) : Option RefuseReason :=
  match c with
  | .encode => none
  | .init => if own.isOwned then some .initWhileOwned else none
  | .perCommand | .release =>
    if !own.isOwned then some .notOwned
    else if phase ≠ .idle then some .reentrant
    else none

/-- A request of class `c` that does `act` if the gate lets it through. -/
def State.gated (c : RequestClass) (act : State → State) (s : State) : State :=
  match gate c s.own s.phase with
  | some reason => s.refuse reason
  | none => act s

/-- The response a bus result gives, unchanged (60_exceptions.md R170, R174). -/
def responseOf : BusResult → FramerResult
  | .ok => .ok
  | .err e => .err e

end Sys2Proof.Machine
end

