-- ==== Sys2Proof/Machine/Codec.lean ====
section
/-! DEFINITION. The ENCODE requests (40_codec.md R100 to R113, 41_framer.md R146). They are answered in every
state; only the response port carries the answer. -/

namespace Sys2Proof.Machine

/-- The answer to `encode(k, a, v)`: the format G frame, and nothing else changes
(40_codec.md R101, 41_framer.md R146). -/
def State.answerEncode (k : CommandKind) (a : Channel) (v : Value) (s : State) : State :=
  s.gated .encode (State.answerFrame (encodeFrame k a v))

/-- `encode(k, a, v)` (40_codec.md R100). -/
def execEncode (k : CommandKind) (a : Channel) (v : Value) (s : State) : Host.Outcome State Fault Refusal :=
  .next (s.answerEncode k a v)

/-- `encode(PowerControl, a, v)` (40_codec.md R109). -/
def execEncodePowerControl (a : Channel) (v : Value) (s : State) : Host.Outcome State Fault Refusal :=
  .next (s.answerEncode .powerControl a v)

/-- `encode(LoadClearCode, a, v)` (40_codec.md R110). -/
def execEncodeLoadClearCode (a : Channel) (v : Value) (s : State) : Host.Outcome State Fault Refusal :=
  .next (s.answerEncode .loadClearCode a v)

/-- `encode(LoadLdac, a, v)` (40_codec.md R111). -/
def execEncodeLoadLdac (a : Channel) (v : Value) (s : State) : Host.Outcome State Fault Refusal :=
  .next (s.answerEncode .loadLdac a v)

/-- `encode(Reset, a, v)` (40_codec.md R112). -/
def execEncodeReset (a : Channel) (v : Value) (s : State) : Host.Outcome State Fault Refusal :=
  .next (s.answerEncode .reset a v)

/-- `encode(InternalRef, a, v)` (40_codec.md R113). -/
def execEncodeInternalRef (a : Channel) (v : Value) (s : State) : Host.Outcome State Fault Refusal :=
  .next (s.answerEncode .internalRef a v)

end Sys2Proof.Machine
end

