-- ==== Sys2Proof/Machine/Construct.lean ====
section
/-! DEFINITION. Construction and release: `init` and `release` (41_framer.md R130, R145). -/

namespace Sys2Proof.Machine

/-- INIT of a block that is not owned: set the line high, discard the result, own the capabilities,
respond Ok (41_framer.md R130). The latches are unspecified afterwards (10_state.md R37). -/
def State.construct (bus : BusCap) (pin : PinCap) (s : State) : State :=
  (({ s.pinSet .high with own := .owned bus pin, phase := .idle }).respond .init .ok).dropLatches

/-- RELEASE of an owned block: give both capabilities back, with no pin or bus call
(41_framer.md R145). A block that owns nothing has nothing to give back (D7). -/
def State.giveBack (s : State) : State :=
  match s.own with
  | .owned bus pin => ({ s with own := .released }).respond .release (.caps bus pin)
  | .unconstructed => s.refuse .notOwned
  | .released => s.refuse .notOwned

/-- `init(bus, pin)`: refused while owned, accepted otherwise, after RELEASE too
(41_framer.md R130, D16). -/
def execInit (bus : BusCap) (pin : PinCap) (s : State) : Host.Outcome State Fault Refusal :=
  .next (s.gated .init (State.construct bus pin))

/-- `release()`: accepted when owned and Idle (41_framer.md R145). -/
def execRelease (s : State) : Host.Outcome State Fault Refusal :=
  .next (s.gated .release State.giveBack)

end Sys2Proof.Machine
end

