-- ==== Sys2Proof/Machine/FramedWrite.lean ====
section
/-! DEFINITION. The framed write: acceptance of a per-command request and the three steps Assert, Write,
Deassert that the framer takes by itself (41_framer.md R131 to R136, R149). -/

namespace Sys2Proof.Machine

/-- `accept(op)`: latch the frame and enter Assert (41_framer.md R131). -/
def State.latchCommand (op : PerCommand) (f : Frame) (s : State) : State :=
  { s with frameReg := f, opReg := op, phase := .assert }

/-- A per-command request: accepted when owned and Idle, else refused (41_framer.md R131, R147). -/
def State.acceptCommand (op : PerCommand) (f : Frame) (s : State) : State :=
  s.gated .perCommand (State.latchCommand op f)

/-- The Assert step: set the line low, result not checked (41_framer.md R133, R134). -/
def State.assertStep (s : State) : State :=
  { s.pinSet .low with phase := .write }

/-- The Write step: exactly one bus call with the latched frame. A call that does not return leaves the
framer where it is (41_framer.md R133, R135; log 9). -/
def State.writeStep (s : State) : State :=
  match s.busDraw with
  | .never => s
  | .returns r => { s.busWrite s.frameReg r with phase := .deassert }

/-- The Deassert step: set the line high unconditionally, return to Idle and respond with the write's
result (41_framer.md R133, R136). -/
def State.deassertStep (s : State) : State :=
  (({ s.pinSet .high with phase := .idle }).respond (.command s.opReg) (responseOf s.wres)).dropLatches

/-- What the block does in a step without a request: the step of its phase while owned, else nothing
(41_framer.md R149, 60_exceptions.md R178). -/
def State.advance (s : State) : State :=
  match s.own with
  | .unconstructed => s
  | .released => s
  | .owned _ _ =>
    match s.phase with
    | .idle => s
    | .assert => s.assertStep
    | .write => s.writeStep
    | .deassert => s.deassertStep

end Sys2Proof.Machine
end

