-- ==== Sys2Proof/Machine/ControlCommands.lean ====
section
/-! DEFINITION. The three per-command requests that send a fixed format F frame (41_framer.md R142 to R144,
30_encoding.md R78). Each meaning is the acceptance; the framed write follows in the next steps
(`State.advance`). -/

namespace Sys2Proof.Machine

/-- `enable_internal_reference()` sends `[0x08, 0x00, 0x00, 0x01]` (41_framer.md R142). -/
def execEnableInternalReference (s : State) : Host.Outcome State Fault Refusal :=
  .next (s.acceptCommand .enableInternalReference enableRefFrame)

/-- `disable_internal_reference()` sends `[0x08, 0x00, 0x00, 0x00]` (41_framer.md R143). -/
def execDisableInternalReference (s : State) : Host.Outcome State Fault Refusal :=
  .next (s.acceptCommand .disableInternalReference disableRefFrame)

/-- `reset()` sends `[0x07, 0x00, 0x00, 0x00]`; it resets the device, not the block
(41_framer.md R144, 70_reset_and_hazards.md R202). -/
def execReset (s : State) : Host.Outcome State Fault Refusal :=
  .next (s.acceptCommand .reset resetFrame)

end Sys2Proof.Machine
end

