-- ==== Sys2Proof/Machine/DataCommands.lean ====
section
/-! DEFINITION. The four per-command requests that send a format G frame (41_framer.md R138 to R141,
30_encoding.md R90). Each meaning is the acceptance; the framed write follows in the next steps
(`State.advance`). -/

namespace Sys2Proof.Machine

/-- `write_input_register(a, v)` sends `encode(WriteInput, a, v)` (41_framer.md R138). -/
def execWriteInputRegister (a : Channel) (v : Value) (s : State) : Host.Outcome State Fault Refusal :=
  .next (s.acceptCommand .writeInputRegister (encodeFrame .writeInput a v))

/-- `update_dac_register(a, v)` sends `encode(UpdateDac, a, v)` (41_framer.md R139). -/
def execUpdateDacRegister (a : Channel) (v : Value) (s : State) : Host.Outcome State Fault Refusal :=
  .next (s.acceptCommand .updateDacRegister (encodeFrame .updateDac a v))

/-- `write_input_update_all(a, v)` sends `encode(WriteInputUpdateAll, a, v)` (41_framer.md R140). -/
def execWriteInputUpdateAll (a : Channel) (v : Value) (s : State) : Host.Outcome State Fault Refusal :=
  .next (s.acceptCommand .writeInputUpdateAll (encodeFrame .writeInputUpdateAll a v))

/-- `write_and_update_channel(a, v)` sends `encode(WriteUpdateChannel, a, v)` (41_framer.md R141). -/
def execWriteAndUpdateChannel (a : Channel) (v : Value) (s : State) : Host.Outcome State Fault Refusal :=
  .next (s.acceptCommand .writeAndUpdateChannel (encodeFrame .writeUpdateChannel a v))

end Sys2Proof.Machine
end

