-- ==== Sys2Proof/Machine/Dispatch.lean ====
section
/-! DEFINITION. `exec`: one arm per request, each one call of its meaning. -/

namespace Sys2Proof.Machine

def exec (i : Instr) (s : State) : Host.Outcome State Fault Refusal :=
  match i with
  | .writeInputRegister a v => Sys2Proof.Machine.execWriteInputRegister a v s
  | .updateDacRegister a v => Sys2Proof.Machine.execUpdateDacRegister a v s
  | .writeInputUpdateAll a v => Sys2Proof.Machine.execWriteInputUpdateAll a v s
  | .writeAndUpdateChannel a v => Sys2Proof.Machine.execWriteAndUpdateChannel a v s
  | .encodePowerControl a v => Sys2Proof.Machine.execEncodePowerControl a v s
  | .encodeLoadClearCode a v => Sys2Proof.Machine.execEncodeLoadClearCode a v s
  | .encodeLoadLdac a v => Sys2Proof.Machine.execEncodeLoadLdac a v s
  | .reset => Sys2Proof.Machine.execReset s
  | .encodeReset a v => Sys2Proof.Machine.execEncodeReset a v s
  | .enableInternalReference => Sys2Proof.Machine.execEnableInternalReference s
  | .disableInternalReference => Sys2Proof.Machine.execDisableInternalReference s
  | .encodeInternalRef a v => Sys2Proof.Machine.execEncodeInternalRef a v s
  | .init bus pin => Sys2Proof.Machine.execInit bus pin s
  | .release => Sys2Proof.Machine.execRelease s
  | .encode k a v => Sys2Proof.Machine.execEncode k a v s

end Sys2Proof.Machine
end

