-- ==== Sys2Proof/WellFormed.lean ====
section
/-! DEFINITION. Which terms of `Instr` are rows of spec/opcode_table.json. Kind and channel operands are
well formed by their types (30_encoding.md R83, R84), so two checks are left. -/

namespace Sys2Proof

/-- A row of the opcode table. The rows `encode.Reset` and `encode.InternalRef` are an "ENCODE result only
when address or value non-zero": their all-zero words are the rows `reset` and
`disable_internal_reference` (30_encoding.md R89). -/
def Instr.wellFormed : Instr → Bool
  | .encodeReset a v => !(a == .dacA && v == 0#16)
  | .encodeInternalRef a v => !(a == .dacA && v == 0#16)
  | .writeInputRegister _ _ => true
  | .updateDacRegister _ _ => true
  | .writeInputUpdateAll _ _ => true
  | .writeAndUpdateChannel _ _ => true
  | .encodePowerControl _ _ => true
  | .encodeLoadClearCode _ _ => true
  | .encodeLoadLdac _ _ => true
  | .reset => true
  | .enableInternalReference => true
  | .disableInternalReference => true
  | .init _ _ => true
  | .release => true
  | .encode _ _ _ => true

end Sys2Proof
end

