-- ==== Sys2Proof/Decode.lean ====
section
/-! DEFINITION. The decoder from the bytes of an opcode-table row to the request it stands for, total on
any bytes and rejecting by name, and the encoder after it (30_encoding.md R72 to R90, opcode_table.json). -/

namespace Sys2Proof

/-- Why bytes are no row of the opcode table. -/
inductive DecodeReject where
  /-- Not exactly 4 bytes (30_encoding.md R71, R86). -/
  | length
  /-- `b0[7:4]` is not zero (30_encoding.md R85). -/
  | highNibble
  /-- `b3[3:0]` is not zero, outside the enable frame (30_encoding.md R85). -/
  | lowNibble
  /-- An opcode of no command kind (30_encoding.md R83). -/
  | opcode (c : BitVec 4)
  /-- An address code of no channel (30_encoding.md R84). -/
  | address (c : BitVec 4)
deriving DecidableEq, Repr

/-- The opcode-table row of a format G frame, by its command kind (opcode_table.json). -/
def rowOfKind (k : CommandKind) (a : Channel) (v : Value) : Instr :=
  match k with
  | .writeInput => .writeInputRegister a v
  | .updateDac => .updateDacRegister a v
  | .writeInputUpdateAll => .writeInputUpdateAll a v
  | .writeUpdateChannel => .writeAndUpdateChannel a v
  | .powerControl => .encodePowerControl a v
  | .loadClearCode => .encodeLoadClearCode a v
  | .loadLdac => .encodeLoadLdac a v
  | .reset => .encodeReset a v
  | .internalRef => .encodeInternalRef a v

/-- The fields of a format G frame, or why it is none (30_encoding.md R87 step 2, R83 to R85). -/
def readGeneric (f : Frame) : Except DecodeReject (CommandKind × Channel × Value) :=
  if hiNibble f.b0 ≠ 0#4 then .error .highNibble
  else if loNibble f.b3 ≠ 0#4 then .error .lowNibble
  else
    match CommandKind.ofOpc? f.opcodeField with
    | none => .error (.opcode f.opcodeField)
    | some k =>
      match Channel.ofCode? f.addressField with
      | none => .error (.address f.addressField)
      | some a => .ok (k, a, f.valueField)

/-- The request of a frame. The control frames come before the `encode` rows that share their words
(opcode_table.json: "match this row before encode.Reset"). -/
def decodeFrame (f : Frame) : Except DecodeReject Instr :=
  if f = resetFrame then .ok .reset
  else if f = enableRefFrame then .ok .enableInternalReference
  else if f = disableRefFrame then .ok .disableInternalReference
  else
    match readGeneric f with
    | .ok (k, a, v) => .ok (rowOfKind k a v)
    | .error e => .error e

/-- The request of a byte sequence: every frame is exactly 4 bytes (30_encoding.md R71). -/
def decode (bs : List Byte) : Except DecodeReject Instr :=
  match bs with
  | [b0, b1, b2, b3] => decodeFrame ⟨b0, b1, b2, b3⟩
  | _ => .error .length

/-- The frame in the opcode-table row of a request. `init`, `release` and the generic `encode` have no
bits in the table (30_encoding.md R70, R90). -/
def Instr.tableFrame : Instr → Option Frame
  | .writeInputRegister a v => some (encodeFrame .writeInput a v)
  | .updateDacRegister a v => some (encodeFrame .updateDac a v)
  | .writeInputUpdateAll a v => some (encodeFrame .writeInputUpdateAll a v)
  | .writeAndUpdateChannel a v => some (encodeFrame .writeUpdateChannel a v)
  | .encodePowerControl a v => some (encodeFrame .powerControl a v)
  | .encodeLoadClearCode a v => some (encodeFrame .loadClearCode a v)
  | .encodeLoadLdac a v => some (encodeFrame .loadLdac a v)
  | .reset => some resetFrame
  | .encodeReset a v => some (encodeFrame .reset a v)
  | .enableInternalReference => some enableRefFrame
  | .disableInternalReference => some disableRefFrame
  | .encodeInternalRef a v => some (encodeFrame .internalRef a v)
  | .init _ _ => none
  | .release => none
  | .encode _ _ _ => none

/-- The bytes of a request's opcode-table row, first byte first; none for the rows without bits. -/
def encode (i : Instr) : Option (List Byte) :=
  i.tableFrame.map Frame.bytes

/-- The bytes of a table word of `nbits` bits (opcode_table.json numbers bit 0 as the least significant
bit of the 32-bit word of 20_memory.md R53): 4 bytes, the most significant first, bits above `nbits`
zero. A row without bits, or of more than 32 bits, has no frame. -/
def tableBytes (nbits w : Nat) : List Byte :=
  if nbits = 0 ∨ 32 < nbits then []
  else (Frame.ofWord (BitVec.ofNat 32 (w % 2 ^ nbits))).bytes

/-- The request this decoder reads from an opcode-table word. -/
def decodeTableWord (nbits w : Nat) : Option Instr :=
  (decode (tableBytes nbits w)).toOption

end Sys2Proof
end

