-- ==== Sys2Proof/Machine/Port.lean ====
section
/-! DEFINITION. The request port: what it offers in this step, and taking that offer
(10_state.md R30, R31; log 10, log 11). -/

namespace Sys2Proof.Machine

/-- What the request port offers in a step. -/
inductive Offer where
  /-- No request. -/
  | nothing
  /-- A request of the table (10_state.md R30). -/
  | request (i : Instr)
  /-- Bytes that are no request: a kind or channel outside its set, or no frame at all
  (41_framer.md R147, 30_encoding.md R83 to R86; log 11). -/
  | outOfSet
deriving DecidableEq, Repr

/-- Reading one slot of the request port. -/
def Arrival.offer : Arrival → Offer
  | .quiet => .nothing
  | .term i => .request i
  | .bytes bs =>
    match decode bs with
    | .ok i => .request i
    | .error _ => .outOfSet

/-- What the port offers in this step: the first slot, or nothing when no slot is left. -/
def State.offer (s : State) : Offer :=
  match s.arrivals with
  | [] => .nothing
  | slot :: _ => slot.offer

/-- The start of a step: the slot is taken and the response port is empty, since a response "is not kept
in the block after the response" (10_state.md R22). -/
def State.take (s : State) : State :=
  { s with arrivals := s.arrivals.tail, resp := none }

/-- A state whose next offer is the table word `w` of `nbits` bits: the requester offers its bytes now,
and everything already offered comes after (log 10). -/
def State.offerTableWord (s : State) (nbits w : Nat) : State :=
  { s with arrivals := .bytes (tableBytes nbits w) :: s.arrivals }

end Sys2Proof.Machine
end

