-- ==== Sys2Proof/Machine/Step.lean ====
section
/-! DEFINITION. One step of the machine (41_framer.md R149): a request at the port is accepted, answered or
refused; without one, the framer takes the step of its phase. -/

namespace Sys2Proof.Machine

/-- One step (41_framer.md R149; log 14). -/
def step (s : State) : Host.Outcome State Fault Refusal :=
  match s.offer with
  | .nothing => .next s.take.advance
  | .request i => exec i s.take
  | .outOfSet => .next (s.take.refuse .outOfSet)

/-- `s` with the table word `w` of `nbits` bits offered at the request port, where the next step looks for
its request (log 10). -/
def State.withFetchWord (s : State) (nbits w : Nat) : State :=
  s.offerTableWord nbits w

end Sys2Proof.Machine
end

