-- ==== Sys2Proof/Machine/Relation.lean ====
section
/-! DEFINITION. The step relation of 41_framer.md R149, written once more as a relation whose draws are
quantified, over the part of the state the spec gives the block. The machine's step is held against it. -/

namespace Sys2Proof

/-- The per-command requests and the frames they send (30_encoding.md R90). -/
def Instr.command? : Instr → Option (PerCommand × Frame)
  | .writeInputRegister a v => some (.writeInputRegister, encodeFrame .writeInput a v)
  | .updateDacRegister a v => some (.updateDacRegister, encodeFrame .updateDac a v)
  | .writeInputUpdateAll a v => some (.writeInputUpdateAll, encodeFrame .writeInputUpdateAll a v)
  | .writeAndUpdateChannel a v => some (.writeAndUpdateChannel, encodeFrame .writeUpdateChannel a v)
  | .enableInternalReference => some (.enableInternalReference, ⟨0x08#8, 0x00#8, 0x00#8, 0x01#8⟩)
  | .disableInternalReference => some (.disableInternalReference, ⟨0x08#8, 0x00#8, 0x00#8, 0x00#8⟩)
  | .reset => some (.reset, ⟨0x07#8, 0x00#8, 0x00#8, 0x00#8⟩)
  | .encodePowerControl _ _ => none
  | .encodeLoadClearCode _ _ => none
  | .encodeLoadLdac _ _ => none
  | .encodeReset _ _ => none
  | .encodeInternalRef _ _ => none
  | .init _ _ => none
  | .release => none
  | .encode _ _ _ => none

/-- The ENCODE requests and the operands they encode (40_codec.md R100, R109 to R113). -/
def Instr.encodeOperands? : Instr → Option (CommandKind × Channel × Value)
  | .encode k a v => some (k, a, v)
  | .encodePowerControl a v => some (.powerControl, a, v)
  | .encodeLoadClearCode a v => some (.loadClearCode, a, v)
  | .encodeLoadLdac a v => some (.loadLdac, a, v)
  | .encodeReset a v => some (.reset, a, v)
  | .encodeInternalRef a v => some (.internalRef, a, v)
  | .writeInputRegister _ _ => none
  | .updateDacRegister _ _ => none
  | .writeInputUpdateAll _ _ => none
  | .writeAndUpdateChannel _ _ => none
  | .enableInternalReference => none
  | .disableInternalReference => none
  | .reset => none
  | .init _ _ => none
  | .release => none

end Sys2Proof

namespace Sys2Proof.Machine

/-- The part of the state that is the block's, without the model's inputs (10_state.md R25 to R29, R31). -/
structure Block where
  own : Ownership
  phase : Phase
  frameReg : Frame
  wres : BusResult
  trace : List Event
  cs : Level
  refused : Bool
  opReg : PerCommand
  resp : Option Response
deriving DecidableEq, Repr

/-- The block in a state of the machine. -/
def State.block (s : State) : Block where
  own := s.own
  phase := s.phase
  frameReg := s.frameReg
  wres := s.wres
  trace := s.trace
  cs := s.cs
  refused := s.refused
  opReg := s.opReg
  resp := s.resp

/-- The requests a state refuses (41_framer.md R147, 60_exceptions.md R179). -/
def refusedIn (i : Instr) (own : Ownership) (phase : Phase) : Prop :=
  ((i.command?.isSome ∨ i = .release) ∧ (own.isOwned = false ∨ phase ≠ .idle)) ∨
  ((∃ bus pin, i = .init bus pin) ∧ own.isOwned = true)

/-- The steps of 41_framer.md R149. Draws are quantified: a pin result, the level after it (free on an
error, 10_state.md R29), a bus result, and the latches outside a framed write (10_state.md R27). R149
enables Assert, Write and Deassert by the phase alone; here they are taken without a request (log 14). -/
inductive BlockStep : Offer → Block → Block → Prop where
  /-- INIT (41_framer.md R130). -/
  | init (b : Block) (bus : BusCap) (pin : PinCap) (pr : PinResult) (level : Level)
      (f : Frame) (w : BusResult) :
      b.own.isOwned = false → (pr = .ok → level = .high) →
      BlockStep (.request (.init bus pin)) b
        { b with
          own := .owned bus pin, phase := .idle, cs := level, frameReg := f, wres := w
          trace := b.trace ++ [.pin .high pr, .resp .init .ok]
          resp := some (.framer .init .ok) }
  /-- accept (41_framer.md R131). -/
  | accept (b : Block) (i : Instr) (op : PerCommand) (f : Frame) :
      i.command? = some (op, f) → b.own.isOwned = true → b.phase = .idle →
      BlockStep (.request i) b
        { b with frameReg := f, opReg := op, phase := .assert, resp := none }
  /-- Assert (41_framer.md R133). -/
  | assert (b : Block) (pr : PinResult) (level : Level) :
      b.own.isOwned = true → b.phase = .assert → (pr = .ok → level = .low) →
      BlockStep .nothing b
        { b with
          cs := level, phase := .write, trace := b.trace ++ [.pin .low pr], resp := none }
  /-- Write, when the bus call returns (41_framer.md R133, R135). -/
  | write (b : Block) (br : BusResult) :
      b.own.isOwned = true → b.phase = .write →
      BlockStep .nothing b
        { b with
          wres := br, phase := .deassert, trace := b.trace ++ [.bus b.frameReg br], resp := none }
  /-- Deassert (41_framer.md R133, R136). -/
  | deassert (b : Block) (pr : PinResult) (level : Level) (f : Frame) (w : BusResult) :
      b.own.isOwned = true → b.phase = .deassert → (pr = .ok → level = .high) →
      BlockStep .nothing b
        { b with
          cs := level, phase := .idle, frameReg := f, wres := w
          trace := b.trace ++ [.pin .high pr, .resp (.command b.opReg) (responseOf b.wres)]
          resp := some (.framer (.command b.opReg) (responseOf b.wres)) }
  /-- RELEASE (41_framer.md R145). -/
  | release (b : Block) (bus : BusCap) (pin : PinCap) :
      b.own = .owned bus pin → b.phase = .idle →
      BlockStep (.request .release) b
        { b with
          own := .released
          trace := b.trace ++ [.resp .release (.caps bus pin)]
          resp := some (.framer .release (.caps bus pin)) }
  /-- ENCODE (41_framer.md R146). -/
  | encode (b : Block) (i : Instr) (k : CommandKind) (a : Channel) (v : Value) :
      i.encodeOperands? = some (k, a, v) →
      BlockStep (.request i) b { b with resp := some (.frame (encodeFrame k a v)) }
  /-- refuse, by ownership and phase (41_framer.md R147). -/
  | refuse (b : Block) (i : Instr) :
      refusedIn i b.own b.phase →
      BlockStep (.request i) b { b with refused := true, resp := none }
  /-- refuse, for an operand outside its set (41_framer.md R147, D8). -/
  | refuseOutOfSet (b : Block) :
      BlockStep .outOfSet b { b with refused := true, resp := none }

/-- No step of the relation is enabled without a request: the block is not owned, or Idle, or waits for a
bus call that does not return (41_framer.md R135, R149; log 9). -/
def State.waits (s : State) : Prop :=
  s.own.isOwned = false ∨ s.phase = .idle ∨ (s.phase = .write ∧ s.busDraw = .never)

/-- Equal blocks, but for the latches where no rule reads them, outside a framed write
(10_state.md R27, I16). -/
def Block.same (b c : Block) : Prop :=
  b.own = c.own ∧ b.phase = c.phase ∧ b.trace = c.trace ∧ b.cs = c.cs ∧ b.refused = c.refused ∧
  b.opReg = c.opReg ∧ b.resp = c.resp ∧
  (b.phase ≠ .idle → b.frameReg = c.frameReg ∧ b.wres = c.wres)

end Sys2Proof.Machine
end

