-- ==== Sys2Proof/Machine/Text.lean ====
section
/-! DEFINITION. The textual form of requests, `mnemonic operand, operand`, one per line
(30_encoding.md R88). Texts are lists of characters. -/

namespace Sys2Proof

/-- The spec name of a command kind (30_encoding.md R79). -/
def CommandKind.text : CommandKind → List Char
  | .writeInput => "WriteInput".toList
  | .updateDac => "UpdateDac".toList
  | .writeInputUpdateAll => "WriteInputUpdateAll".toList
  | .writeUpdateChannel => "WriteUpdateChannel".toList
  | .powerControl => "PowerControl".toList
  | .loadClearCode => "LoadClearCode".toList
  | .loadLdac => "LoadLdac".toList
  | .reset => "Reset".toList
  | .internalRef => "InternalRef".toList

/-- The spec name of a channel (30_encoding.md R80). -/
def Channel.text : Channel → List Char
  | .dacA => "DacA".toList
  | .dacB => "DacB".toList
  | .dacC => "DacC".toList
  | .dacD => "DacD".toList
  | .dacE => "DacE".toList
  | .dacF => "DacF".toList
  | .dacG => "DacG".toList
  | .dacH => "DacH".toList
  | .allDacs => "AllDacs".toList

/-- The command kind of a name. -/
def CommandKind.ofText? (w : List Char) : Option CommandKind :=
  CommandKind.all.find? (fun k => k.text == w)

/-- The channel of a name. -/
def Channel.ofText? (w : List Char) : Option Channel :=
  Channel.all.find? (fun a => a.text == w)

/-- The sixteen hexadecimal digits, in the spelling of the spec's examples (log 18). -/
def hexDigits : List Char := "0123456789ABCDEF".toList

/-- The digit of a nibble. -/
def hexDigit (n : BitVec 4) : Char := hexDigits.getD n.toNat '0'

/-- The nibble of a digit. -/
def hexNibble? (c : Char) : Option (BitVec 4) :=
  (List.range 16).findSome? (fun n => if hexDigits.getD n '0' == c then some (BitVec.ofNat 4 n) else none)

/-- A value as a `0xNNNN` literal of 16 bits (30_encoding.md R88). -/
def valueText (v : Value) : List Char :=
  ['0', 'x', hexDigit (v.extractLsb' 12 4), hexDigit (v.extractLsb' 8 4),
   hexDigit (v.extractLsb' 4 4), hexDigit (v.extractLsb' 0 4)]

/-- The value of a `0xNNNN` literal (30_encoding.md R88). -/
def valueOfText? (w : List Char) : Option Value :=
  match w with
  | ['0', 'x', c3, c2, c1, c0] =>
    match hexNibble? c3, hexNibble? c2, hexNibble? c1, hexNibble? c0 with
    | some n3, some n2, some n1, some n0 => some (n3 ++ n2 ++ n1 ++ n0)
    | _, _, _, _ => none
  | _ => none

/-- Operands joined by a comma and a space (30_encoding.md R88). -/
def joinOperands : List (List Char) → List Char
  | [] => []
  | [w] => w
  | w :: ws => w ++ ',' :: ' ' :: joinOperands ws

/-- The operands of a text, split at each comma followed by a space. -/
def splitOperands : List Char → List (List Char)
  | [] => [[]]
  | ',' :: ' ' :: rest => [] :: splitOperands rest
  | c :: rest =>
    match splitOperands rest with
    | [] => [[c]]
    | w :: ws => (c :: w) :: ws

/-- The text before the first `c`, and what follows it, if there is one. -/
def splitFirst (c : Char) : List Char → List Char × Option (List Char)
  | [] => ([], none)
  | d :: ds => if d = c then ([], some ds) else (d :: (splitFirst c ds).1, (splitFirst c ds).2)

/-- The mnemonic of a request (30_encoding.md R88: the request names of 10_state.md R30). -/
def Instr.mnemonic : Instr → List Char
  | .writeInputRegister _ _ => "write_input_register".toList
  | .updateDacRegister _ _ => "update_dac_register".toList
  | .writeInputUpdateAll _ _ => "write_input_update_all".toList
  | .writeAndUpdateChannel _ _ => "write_and_update_channel".toList
  | .encodePowerControl _ _ => "encode".toList
  | .encodeLoadClearCode _ _ => "encode".toList
  | .encodeLoadLdac _ _ => "encode".toList
  | .reset => "reset".toList
  | .encodeReset _ _ => "encode".toList
  | .enableInternalReference => "enable_internal_reference".toList
  | .disableInternalReference => "disable_internal_reference".toList
  | .encodeInternalRef _ _ => "encode".toList
  | .init _ _ => "init".toList
  | .release => "release".toList
  | .encode _ _ _ => "encode".toList

/-- The operands of a request as texts. The capabilities are written by the names `bus` and `pin`
(95_test_vectors.md P1; log 18). -/
def Instr.operands : Instr → List (List Char)
  | .writeInputRegister a v => [a.text, valueText v]
  | .updateDacRegister a v => [a.text, valueText v]
  | .writeInputUpdateAll a v => [a.text, valueText v]
  | .writeAndUpdateChannel a v => [a.text, valueText v]
  | .encodePowerControl a v => [CommandKind.powerControl.text, a.text, valueText v]
  | .encodeLoadClearCode a v => [CommandKind.loadClearCode.text, a.text, valueText v]
  | .encodeLoadLdac a v => [CommandKind.loadLdac.text, a.text, valueText v]
  | .reset => []
  | .encodeReset a v => [CommandKind.reset.text, a.text, valueText v]
  | .enableInternalReference => []
  | .disableInternalReference => []
  | .encodeInternalRef a v => [CommandKind.internalRef.text, a.text, valueText v]
  | .init _ _ => ["bus".toList, "pin".toList]
  | .release => []
  | .encode k a v => [k.text, a.text, valueText v]

/-- A request as a line of text (30_encoding.md R88). -/
def Instr.line (i : Instr) : List Char :=
  match i.operands with
  | [] => i.mnemonic
  | w :: ws => i.mnemonic ++ ' ' :: joinOperands (w :: ws)

/-- A data request's operands: a channel and a value. -/
def parseData (make : Channel → Value → Instr) : List (List Char) → Option Instr
  | [wa, wv] =>
    match Channel.ofText? wa, valueOfText? wv with
    | some a, some v => some (make a v)
    | _, _ => none
  | _ => none

/-- The operands of `encode`: a kind, a channel and a value. -/
def parseEncode : List (List Char) → Option Instr
  | wk :: ws =>
    match CommandKind.ofText? wk with
    | some k => parseData (Instr.encode k) ws
    | none => none
  | [] => none

/-- A request without operands. -/
def parseBare (i : Instr) : List (List Char) → Option Instr
  | [] => some i
  | _ :: _ => none

/-- The operands of `init`: the names `bus` and `pin`, which stand for the given capabilities (log 18). -/
def parseInit (bus : BusCap) (pin : PinCap) : List (List Char) → Option Instr
  | [wb, wp] => if wb = "bus".toList ∧ wp = "pin".toList then some (.init bus pin) else none
  | _ => none

/-- The request of a mnemonic and its operands, where `bus` and `pin` name the given capabilities. -/
def parseWords (bus : BusCap) (pin : PinCap) (m : List Char) (ws : List (List Char)) : Option Instr :=
  if m = "write_input_register".toList then parseData .writeInputRegister ws
  else if m = "update_dac_register".toList then parseData .updateDacRegister ws
  else if m = "write_input_update_all".toList then parseData .writeInputUpdateAll ws
  else if m = "write_and_update_channel".toList then parseData .writeAndUpdateChannel ws
  else if m = "enable_internal_reference".toList then parseBare .enableInternalReference ws
  else if m = "disable_internal_reference".toList then parseBare .disableInternalReference ws
  else if m = "reset".toList then parseBare .reset ws
  else if m = "release".toList then parseBare .release ws
  else if m = "init".toList then parseInit bus pin ws
  else if m = "encode".toList then parseEncode ws
  else none

/-- The request of a line of text, where `bus` and `pin` name the given capabilities (30_encoding.md R88).
A line that is no request reads as none. -/
def parseLine (bus : BusCap) (pin : PinCap) (line : List Char) : Option Instr :=
  match splitFirst ' ' line with
  | (m, none) => parseWords bus pin m []
  | (m, some rest) => parseWords bus pin m (splitOperands rest)

/-- A request in the form its text names: the `encode.<kind>` rows of the opcode table are written as the
request `encode` (30_encoding.md R88, 10_state.md R30; log 15). -/
def Instr.asRequest : Instr → Instr
  | .encodePowerControl a v => .encode .powerControl a v
  | .encodeLoadClearCode a v => .encode .loadClearCode a v
  | .encodeLoadLdac a v => .encode .loadLdac a v
  | .encodeReset a v => .encode .reset a v
  | .encodeInternalRef a v => .encode .internalRef a v
  | .writeInputRegister a v => .writeInputRegister a v
  | .updateDacRegister a v => .updateDacRegister a v
  | .writeInputUpdateAll a v => .writeInputUpdateAll a v
  | .writeAndUpdateChannel a v => .writeAndUpdateChannel a v
  | .reset => .reset
  | .enableInternalReference => .enableInternalReference
  | .disableInternalReference => .disableInternalReference
  | .init bus pin => .init bus pin
  | .release => .release
  | .encode k a v => .encode k a v

/-- The lines of a text (30_encoding.md R88: "one per line"). -/
def splitLines : List Char → List (List Char)
  | [] => [[]]
  | c :: rest =>
    if c = '\n' then [] :: splitLines rest
    else match splitLines rest with
      | [] => [[c]]
      | w :: ws => (c :: w) :: ws

/-- The requests of a program text, none if a line is no request. -/
def parseProgram (bus : BusCap) (pin : PinCap) (text : List Char) : Option (List Instr) :=
  (splitLines text).mapM (parseLine bus pin)

end Sys2Proof
end

