-- ==== Sys2Proof/Machine/Transport.lean ====
section
/-! DEFINITION. What the spec says of the transport beyond the bus port: the parameter P_WireOrder
(20_memory.md R54) and the bytes a bus write delivers (20_memory.md R56). No step of the block reads
either. -/

namespace Sys2Proof

/-- `P_WireOrder`: the bits of the word view in the order they go on the wire (20_memory.md R54). -/
abbrev WireOrder := List Nat

/-- A wire order sends each of the 32 bits once. -/
def WireOrder.legal (o : WireOrder) : Bool :=
  o.length == 32 && (List.range 32).all (fun n => o.contains n)

/-- The default of `P_WireOrder`: from bit 31 down to bit 0 (92_eei_decisions.md D9; log 16). -/
def defaultWireOrder : WireOrder := (List.range 32).reverse

/-- The bits of a frame in the order of the wire (20_memory.md R54). -/
def wireBits (o : WireOrder) (f : Frame) : List Bool :=
  o.map (fun n => f.word.getLsbD n)

/-- The bits of a byte, most significant first (20_memory.md R54). -/
def byteBits (b : Byte) : List Bool :=
  (List.range 8).reverse.map (fun n => b.getLsbD n)

/-- Whether a bus write of `f` that returned `r` may have delivered the bytes `bs` to the device: all four
on Ok, any initial part on an error (20_memory.md R56, 92_eei_decisions.md D5; log 17). -/
def mayDeliver (f : Frame) (r : BusResult) (bs : List Byte) : Bool :=
  match r with
  | .ok => bs == f.bytes
  | .err _ => bs.isPrefixOf f.bytes

end Sys2Proof
end

