-- ==== Sys2Proof/Machine/Classify.lean ====
section
/-! DEFINITION. The checker of frames seen on the bus port (30_encoding.md R87) and the frames each
per-command request can send (30_encoding.md R90, 41_framer.md R148). -/

namespace Sys2Proof

/-- One reading of a frame (30_encoding.md R87). -/
inductive Reading where
  /-- A row of the control frames (30_encoding.md R78). -/
  | control (op : PerCommand)
  /-- A format G frame. -/
  | generic (k : CommandKind) (a : Channel) (v : Value)
deriving DecidableEq, Repr

/-- The rows of 30_encoding.md R78. -/
def controlRows : List (PerCommand × Frame) :=
  [(.reset, resetFrame),
   (.enableInternalReference, enableRefFrame),
   (.disableInternalReference, disableRefFrame)]

/-- The control reading of a frame (30_encoding.md R87 step 1). -/
def controlReading (f : Frame) : List Reading :=
  (controlRows.filter (fun row => row.2 == f)).map (fun row => .control row.1)

/-- The format G reading of a frame (30_encoding.md R87 step 2). -/
def genericReading (f : Frame) : List Reading :=
  match readGeneric f with
  | .ok (k, a, v) => [.generic k a v]
  | .error _ => []

/-- All readings of a frame; none if the block cannot emit it or answer it (30_encoding.md R87). -/
def classify (f : Frame) : List Reading :=
  controlReading f ++ genericReading f

/-- The command kind whose frames a data request sends, none for the control requests
(30_encoding.md R90). -/
def PerCommand.kind? : PerCommand → Option CommandKind
  | .writeInputRegister => some .writeInput
  | .updateDacRegister => some .updateDac
  | .writeInputUpdateAll => some .writeInputUpdateAll
  | .writeAndUpdateChannel => some .writeUpdateChannel
  | .enableInternalReference => none
  | .disableInternalReference => none
  | .reset => none

/-- Whether a per-command request can send a frame: a data request any format G frame of its kind, a
control request its fixed frame (30_encoding.md R90). -/
def PerCommand.sends (op : PerCommand) (f : Frame) : Bool :=
  match op.kind? with
  | none => controlReading f == [.control op]
  | some k =>
    match readGeneric f with
    | .ok (k', _, _) => k' == k
    | .error _ => false

/-- The seven per-command requests (10_state.md R30). -/
def PerCommand.all : List PerCommand :=
  [.writeInputRegister, .updateDacRegister, .writeInputUpdateAll, .writeAndUpdateChannel,
   .enableInternalReference, .disableInternalReference, .reset]

/-- The frames that can appear in a `Bus` event (41_framer.md R148). -/
def busFrame (f : Frame) : Bool :=
  PerCommand.all.any (fun op => op.sends f)

end Sys2Proof
end

