-- ==== Sys2Proof/Safety.lean ====
section
/-! DEFINITION. The terms claims use: the end of a run, hangs, the chip-select invariant and the grammar of
the trace. -/

namespace Sys2Proof.Machine

/-- "No request is pending" (41_framer.md R150). The spec does not say which requests are pending.
DESIGN CHOICE (log 21): a request in any slot of `arrivals` is, in a later slot too, and so are bytes that
are refused as one. -/
def State.noRequestPending (s : State) : Bool :=
  s.arrivals.all (fun a => a.offer == .nothing)

/-- The end of a run: no request is pending and the block is not owned or Idle (41_framer.md R150). A block that
is Idle at a quiet slot before a later request has not ended its run (log 21). -/
def State.runEnded (s : State) : Bool :=
  s.noRequestPending && (!s.own.isOwned || s.phase == .idle)

/-- A hang: the Write step waits for a bus call that does not return (41_framer.md R135). -/
def State.hung (s : State) : Bool :=
  s.own.isOwned && s.phase == .write && s.busDraw == .never

/-- Whether an event is no failed pin call. -/
def Event.pinOk : Event → Bool
  | .pin _ .ok => true
  | .pin _ (.err _) => false
  | .bus _ _ => true
  | .resp _ _ => true

/-- "every `PinSet` so far has returned `Ok`" (10_state.md R38). -/
def State.allPinsOk (s : State) : Bool :=
  s.trace.all Event.pinOk

/-- The level the line has in each phase when no pin call has failed: low from the Assert step until the
Deassert step, high otherwise (10_state.md R38, 70_reset_and_hazards.md R205). -/
def Phase.level : Phase → Level
  | .idle => .high
  | .assert => .high
  | .write => .low
  | .deassert => .low

/-- The chip-select invariant: if every pin call so far returned Ok, the line has the level of the phase
while owned, and is high after RELEASE (10_state.md R38, 41_framer.md R145, 70_reset_and_hazards.md R205). -/
def State.lineInv (s : State) : Prop :=
  s.allPinsOk = true →
    match s.own with
    | .unconstructed => True
    | .owned _ _ => s.cs = s.phase.level
    | .released => s.cs = .high

/-- The last pin call of a trace, if there is one. -/
def lastPin (t : List Event) : Option (Level × PinResult) :=
  t.foldl (fun acc e => match e with | .pin l r => some (l, r) | .bus _ _ => acc | .resp _ _ => acc) none

/-- After a `PinSet(level)` that returned Ok, `cs` is `level` until the next pin call (10_state.md R29). -/
def State.lineFollowsPin (s : State) : Prop :=
  ∀ level, lastPin s.trace = some (level, .ok) → s.cs = level

/-- Where a trace stands in the grammar of 20_memory.md R61 and 41_framer.md R130, R137, R145. -/
inductive TracePoint where
  /-- Nothing yet, or after RELEASE. -/
  | unowned
  /-- After INIT's set-high, before its response. -/
  | constructing
  /-- Between operations. -/
  | between
  /-- After the set-low of a framed write. -/
  | selected
  /-- After the bus call of a framed write. -/
  | written (f : Frame) (r : BusResult)
  /-- After the set-high of a framed write, before its response. -/
  | deselected (f : Frame) (r : BusResult)
deriving DecidableEq, Repr

/-- One event of the grammar: INIT is a set-high and its response; an operation is a set-low, one bus
call with a frame a per-command request sends, a set-high, and a response with the bus call's result to a
request that sends that frame; RELEASE is its response. Anything else is no event here. -/
def TracePoint.next (p : TracePoint) (e : Event) : Option TracePoint :=
  match p, e with
  | .unowned, .pin .high _ => some .constructing
  | .constructing, .resp .init .ok => some .between
  | .between, .pin .low _ => some .selected
  | .between, .resp .release (.caps _ _) => some .unowned
  | .selected, .bus f r => if busFrame f then some (.written f r) else none
  | .written f r, .pin .high _ => some (.deselected f r)
  | .deselected f r, .resp (.command op) x =>
    if op.sends f ∧ x = responseOf r then some .between else none
  | _, _ => none

/-- Reading a trace event by event; none when an event is out of place. -/
def tracePoint (t : List Event) : Option TracePoint :=
  t.foldl (fun acc e => acc.bind (fun p => p.next e)) (some .unowned)

/-- The trace stands in the grammar where ownership and phase say, and the latched frame of an accepted
request is one that request sends (20_memory.md R61, R62, 41_framer.md R137, R148). -/
def State.traceInv (s : State) : Prop :=
  match s.own with
  | .unconstructed => tracePoint s.trace = some .unowned
  | .released => tracePoint s.trace = some .unowned
  | .owned _ _ =>
    match s.phase with
    | .idle => tracePoint s.trace = some .between
    | .assert => tracePoint s.trace = some .between ∧ s.opReg.sends s.frameReg = true
    | .write => tracePoint s.trace = some .selected ∧ s.opReg.sends s.frameReg = true
    | .deassert =>
      tracePoint s.trace = some (.written s.frameReg s.wres) ∧ s.opReg.sends s.frameReg = true

/-- Whether an event is a bus call. -/
def Event.isBus : Event → Bool
  | .pin _ _ => false
  | .bus _ _ => true
  | .resp _ _ => false

/-- Whether an event is the response to a per-command request. -/
def Event.isCommandResponse : Event → Bool
  | .resp (.command _) _ => true
  | .resp .init _ => false
  | .resp .release _ => false
  | .pin _ _ => false
  | .bus _ _ => false

/-- `t` is the state after `k` steps, if every one of them answers a next state. -/
def stepsTo (k : Nat) (s t : State) : Prop :=
  match k with
  | 0 => s = t
  | n + 1 => ∃ u, step s = .next u ∧ stepsTo n u t

/-- No request arrives in the next `n` steps. -/
def State.quietFor (n : Nat) (s : State) : Bool :=
  (s.arrivals.take n).all (fun a => a.offer == .nothing)

/-- What is left of an operation after its acceptance, in state `t`: if no request arrives meanwhile and
the bus call returns `br`, the next three steps append its pin and bus events and its response, and leave
the block owned and Idle, the line high if the set-high returned Ok (41_framer.md R133, R136, R137). -/
def State.completes (t : State) (op : PerCommand) (f : Frame) : Prop :=
  t.quietFor 3 = true → ∀ br, t.take.assertStep.busDraw = .returns br →
    ∃ pr2 u, stepsTo 3 t u ∧
      u.trace = t.trace ++
        [.pin .low t.pinDraw, .bus f br, .pin .high pr2, .resp (.command op) (responseOf br)] ∧
      u.resp = some (.framer (.command op) (responseOf br)) ∧
      u.own = t.own ∧ u.phase = .idle ∧ (pr2 = .ok → u.cs = .high) ∧
      u.refused = t.refused ∧ u.opReg = t.opReg ∧ u.arrivals = t.arrivals.drop 3

/-- A per-command request and its whole framed write: owned and Idle, it is accepted with frame `f`, every
other field as it was, and then completes (41_framer.md R131, R133, R137). -/
def sendsInOneFramedWrite (i : Instr) (op : PerCommand) (f : Frame) : Prop :=
  ∀ s : State, s.own.isOwned = true → s.phase = .idle →
    exec i s = .next { s with frameReg := f, opReg := op, phase := .assert } ∧
    State.completes { s with frameReg := f, opReg := op, phase := .assert } op f

/-- The answer of an ENCODE request: in every state the response port carries `f`, and every other field is
as it was (40_codec.md R101). -/
def answersWith (i : Instr) (f : Frame) : Prop :=
  ∀ s : State, exec i s = .next { s with resp := some (.frame f) }

/-- The bus calls of a trace, and of the trace's per-command responses, counted: one call for each
response, and one more between the call's return and its response (20_memory.md R57). -/
def State.busCountInv (s : State) : Prop :=
  s.trace.countP Event.isBus =
    s.trace.countP Event.isCommandResponse +
      (if s.own.isOwned = true ∧ s.phase = .deassert then 1 else 0)

end Sys2Proof.Machine
end

