-- ==== Sys2Proof/Certificates/Slice0/Obligations.lean ====
section
/-! DEFINITION. The statements for the provers. Draws (pin results, bus answers, line levels) are whatever the
state or Config gives; no statement rests on the value of one. -/

open Sys2Proof Sys2Proof.Machine

/-! ### Encoding -/

/-- 30_encoding.md R73 to R76: the four bytes of a format G frame as numbers, and byte 0 of the vectors. -/
def Obligations.FormatGFrameBytes : Prop :=
  (∀ (k : CommandKind) (a : Channel) (v : Value),
    hiNibble (encodeFrame k a v).b0 = 0b0000#4 ∧ loNibble (encodeFrame k a v).b0 = k.opc ∧
    hiNibble (encodeFrame k a v).b1 = a.code ∧
    (encodeFrame k a v).b1.toNat = a.code.toNat * 16 + v.toNat / 4096 ∧
    (encodeFrame k a v).b2.toNat = v.toNat / 16 % 256 ∧
    (encodeFrame k a v).b3.toNat = v.toNat % 16 * 16 ∧
    loNibble (encodeFrame k a v).b3 = 0b0000#4) ∧
  (∀ (a : Channel) (v : Value),
    (encodeFrame .writeUpdateChannel a v).b0 = 0x03#8 ∧ (encodeFrame .writeInput a v).b0 = 0x00#8 ∧
    resetFrame.b0 = 0x07#8 ∧ enableRefFrame.b0 = 0x08#8 ∧ disableRefFrame.b0 = 0x08#8)

/-- 30_encoding.md R77 (derived there): format G in the word view of 20_memory.md R53. -/
def Obligations.FormatGFrameWord : Prop :=
  ∀ (k : CommandKind) (a : Channel) (v : Value),
    (encodeFrame k a v).word.toNat = k.opc.toNat * 2 ^ 24 + a.code.toNat * 2 ^ 20 + v.toNat * 2 ^ 4 ∧
    Frame.ofWord (encodeFrame k a v).word = encodeFrame k a v

/-- The opcode and channel codes of 30_encoding.md R79, R80; 1, 2, 4, 5, 6 and 1 to 7 by decisions D1, D2
(log 1). The lists hold every kind and channel. -/
def Obligations.OpcodeAndChannelCodes : Prop :=
  CommandKind.all.map (fun k => k.opc.toNat) = [0, 1, 2, 3, 4, 5, 6, 7, 8] ∧
  Channel.all.map (fun a => a.code.toNat) = [0, 1, 2, 3, 4, 5, 6, 7, 15] ∧
  (∀ k : CommandKind, k ∈ CommandKind.all) ∧ (∀ a : Channel, a ∈ Channel.all)

/-- 40_codec.md R104 (derived there): ENCODE is injective. -/
def Obligations.EncodeFrameInjective : Prop :=
  ∀ (k k' : CommandKind) (a a' : Channel) (v v' : Value),
    encodeFrame k a v = encodeFrame k' a' v' → k = k' ∧ a = a' ∧ v = v'

/-- 95_test_vectors.md S1 to S6: the six vectors of the source. -/
def Obligations.SourceVectors : Prop :=
  encodeFrame .writeUpdateChannel .dacA 0x0000#16 = ⟨0x03#8, 0x00#8, 0x00#8, 0x00#8⟩ ∧
  encodeFrame .writeInput .allDacs 0x0000#16 = ⟨0x00#8, 0xF0#8, 0x00#8, 0x00#8⟩ ∧
  encodeFrame .writeInput .dacA 0xFFFF#16 = ⟨0x00#8, 0x0F#8, 0xFF#8, 0xF0#8⟩ ∧
  Instr.tableFrame .enableInternalReference = some ⟨0x08#8, 0x00#8, 0x00#8, 0x01#8⟩ ∧
  Instr.tableFrame .disableInternalReference = some ⟨0x08#8, 0x00#8, 0x00#8, 0x00#8⟩ ∧
  Instr.tableFrame .reset = some ⟨0x07#8, 0x00#8, 0x00#8, 0x00#8⟩

/-- 30_encoding.md R89 (derived there): which control frames ENCODE can give. -/
def Obligations.ControlFrameEquivalences : Prop :=
  encodeFrame .reset .dacA 0x0000#16 = resetFrame ∧
  encodeFrame .internalRef .dacA 0x0000#16 = disableRefFrame ∧
  (∀ (k : CommandKind) (a : Channel) (v : Value), encodeFrame k a v ≠ enableRefFrame) ∧
  encodeFrame .internalRef .dacA 0x0001#16 = ⟨0x08#8, 0x00#8, 0x00#8, 0x10#8⟩

/-- The decoder reads back every row the encoder writes, with every operand. -/
def Obligations.DecodeEncodeRoundTrip : Prop :=
  ∀ (i : Instr) (bs : List Byte), i.wellFormed = true → encode i = some bs → decode bs = .ok i

/-- Every byte sequence the decoder reads is the one the encoder writes for that well-formed request. -/
def Obligations.EncodeDecodeRoundTrip : Prop :=
  ∀ (bs : List Byte) (i : Instr), decode bs = .ok i → i.wellFormed = true ∧ encode i = some bs

/-- The rows without bits are `init`, `release` and the generic `encode` (opcode_table.json). -/
def Obligations.RowsWithoutBits : Prop :=
  ∀ i : Instr, encode i = none ↔
    (∃ bus pin, i = .init bus pin) ∨ i = .release ∨ (∃ k a v, i = .encode k a v)

/-- The decoder refuses exactly the reserved encodings (30_encoding.md R83 to R85) and other lengths (R71).
That the machine has a decoder of requests is the model's choice (log 11). -/
def Obligations.DecoderRefusesExactlyReserved : Prop :=
  (∀ f : Frame, (∃ e, decode f.bytes = .error e) ↔
    f ≠ ⟨0x08#8, 0x00#8, 0x00#8, 0x01#8⟩ ∧
      (16 ≤ f.b0.toNat ∨ f.b3.toNat % 16 ≠ 0 ∨ 8 < f.b0.toNat % 16 ∨
        (8 ≤ f.b1.toNat / 16 ∧ f.b1.toNat / 16 ≤ 14))) ∧
  (∀ bs : List Byte, bs.length ≠ 4 → decode bs = .error .length)

/-- A few words of opcode_table.json, written out bit by bit, decode to the requests of their rows. That the
machine reads bytes as requests at all is the model's choice (log 11); the opcodes 1 and 4 and the code of
channel C in these words are the spec's decisions D1 and D2, which the model takes as fixed (log 1). -/
def Obligations.DecodeTableWords : Prop :=
  decodeTableWord 32 0b00000000000011111111111111110000 = some (.writeInputRegister .dacA 0xFFFF#16) ∧
  decodeTableWord 32 0b00000001001010101011110011010000 = some (.updateDacRegister .dacC 0xABCD#16) ∧
  decodeTableWord 32 0b00000100111100000000000000000000 = some (.encodePowerControl .allDacs 0x0000#16) ∧
  decodeTableWord 32 0b00000111000000000000000000000000 = some .reset ∧
  decodeTableWord 32 0b00001000000000000000000000000001 = some .enableInternalReference ∧
  decodeTableWord 32 0b00001000000000000000000000000000 = some .disableInternalReference ∧
  decodeTableWord 32 0b00001001000000000000000000000000 = none ∧
  decodeTableWord 32 0b00000000100000000000000000000000 = none

/-- 30_encoding.md R87 (derived there): the checker's verdicts, each exactly. -/
def Obligations.ClassifierIsExact : Prop :=
  ∀ f : Frame,
    (∀ k a v, Reading.generic k a v ∈ classify f ↔ f = encodeFrame k a v) ∧
    (∀ op, Reading.control op ∈ classify f ↔
      (op = .reset ∧ f = ⟨0x07#8, 0x00#8, 0x00#8, 0x00#8⟩) ∨
      (op = .enableInternalReference ∧ f = ⟨0x08#8, 0x00#8, 0x00#8, 0x01#8⟩) ∨
      (op = .disableInternalReference ∧ f = ⟨0x08#8, 0x00#8, 0x00#8, 0x00#8⟩))

/-- 41_framer.md R148 (derived there): the frames that can appear in a `Bus` event. -/
def Obligations.BusFramesAreExactlyThese : Prop :=
  ∀ f : Frame, busFrame f = true ↔
    (∃ k a v, k.opc.toNat ≤ 3 ∧ f = encodeFrame k a v) ∨
    f = ⟨0x07#8, 0x00#8, 0x00#8, 0x00#8⟩ ∨ f = ⟨0x08#8, 0x00#8, 0x00#8, 0x01#8⟩ ∨
    f = ⟨0x08#8, 0x00#8, 0x00#8, 0x00#8⟩

/-- 20_memory.md R54: the default wire order, the spec's decision D9 (log 16): byte 0 first, each byte most
significant bit first. -/
def Obligations.DefaultWireOrder : Prop :=
  defaultWireOrder.legal = true ∧
  ∀ f : Frame, wireBits defaultWireOrder f = f.bytes.flatMap byteBits

/-- 20_memory.md R56: on an error any initial part of the frame, "from none to all four"; on Ok the whole
frame. The relation is the spec's decision D5 (log 17). -/
def Obligations.FailedWriteDeliversAnInitialPart : Prop :=
  ∀ (f : Frame) (bs : List Byte),
    (∀ e, mayDeliver f (.err e) bs = true ↔ ∃ n, n ≤ 4 ∧ bs = f.bytes.take n) ∧
    (mayDeliver f .ok bs = true ↔ bs = f.bytes)

/-- 30_encoding.md R88, the spec's decision D23 (log 18): reading a request's line gives the request back,
where `bus` and `pin` name its capabilities. -/
def Obligations.TextRoundTrip : Prop :=
  ∀ (i : Instr) (bus : BusCap) (pin : PinCap),
    (∀ b p, i = .init b p → b = bus ∧ p = pin) → parseLine bus pin i.line = some i.asRequest

/-! ### Requests -/

/-- 40_codec.md R100, R101, R109 to R113: every ENCODE request is answered with its format G frame, in every
state, and nothing else changes: no state, no call, no event. The opcodes 0x04, 0x05 and 0x06 are the spec's
decision D1, which the model takes as fixed (log 1); that the `encode.<kind>` rows are the ENCODE request
with that kind is the model's reading (log 15). -/
def Obligations.EncodeRequestsAreAnswered : Prop :=
  ∀ (k : CommandKind) (a : Channel) (v : Value),
    answersWith (.encode k a v)
      ⟨k.opc.zeroExtend 8, a.code ++ v.extractLsb' 12 4, v.extractLsb' 4 8, v.extractLsb' 0 4 ++ 0#4⟩ ∧
    answersWith (.encodePowerControl a v)
      ⟨0x04#8, a.code ++ v.extractLsb' 12 4, v.extractLsb' 4 8, v.extractLsb' 0 4 ++ 0#4⟩ ∧
    answersWith (.encodeLoadClearCode a v)
      ⟨0x05#8, a.code ++ v.extractLsb' 12 4, v.extractLsb' 4 8, v.extractLsb' 0 4 ++ 0#4⟩ ∧
    answersWith (.encodeLoadLdac a v)
      ⟨0x06#8, a.code ++ v.extractLsb' 12 4, v.extractLsb' 4 8, v.extractLsb' 0 4 ++ 0#4⟩ ∧
    answersWith (.encodeReset a v)
      ⟨0x07#8, a.code ++ v.extractLsb' 12 4, v.extractLsb' 4 8, v.extractLsb' 0 4 ++ 0#4⟩ ∧
    answersWith (.encodeInternalRef a v)
      ⟨0x08#8, a.code ++ v.extractLsb' 12 4, v.extractLsb' 4 8, v.extractLsb' 0 4 ++ 0#4⟩

/-- 41_framer.md R130: INIT of a block that is not owned makes one set-high, discards its result, owns the
capabilities and responds Ok; the latches are unspecified afterwards. -/
def Obligations.InitConstructs : Prop :=
  ∀ (bus : BusCap) (pin : PinCap) (s : State), s.own.isOwned = false →
    ∃ t, exec (.init bus pin) s = .next t ∧
      t.own = .owned bus pin ∧ t.phase = .idle ∧
      (s.pinDraw = .ok → t.cs = .high) ∧ (∀ p, s.pinDraw = .err p → t.cs = s.levelDraw) ∧
      t.trace = s.trace ++ [.pin .high s.pinDraw, .resp .init .ok] ∧
      t.resp = some (.framer .init .ok) ∧
      t.refused = s.refused ∧ t.opReg = s.opReg ∧ t.arrivals = s.arrivals ∧
      t.busAnswers = s.busAnswers ∧ t.pinAnswers = s.pinAnswers.tail

/-- 41_framer.md R138 to R141: the four data requests, owned and Idle, each send the format G frame of their
kind in one framed write. Operands and three of the opcodes are the spec's decisions D1, D3 (log 1). -/
def Obligations.DataRequestsSendTheirFrame : Prop :=
  ∀ (a : Channel) (v : Value),
    sendsInOneFramedWrite (.writeInputRegister a v) .writeInputRegister
      ⟨0x00#8, a.code ++ v.extractLsb' 12 4, v.extractLsb' 4 8, v.extractLsb' 0 4 ++ 0#4⟩ ∧
    sendsInOneFramedWrite (.updateDacRegister a v) .updateDacRegister
      ⟨0x01#8, a.code ++ v.extractLsb' 12 4, v.extractLsb' 4 8, v.extractLsb' 0 4 ++ 0#4⟩ ∧
    sendsInOneFramedWrite (.writeInputUpdateAll a v) .writeInputUpdateAll
      ⟨0x02#8, a.code ++ v.extractLsb' 12 4, v.extractLsb' 4 8, v.extractLsb' 0 4 ++ 0#4⟩ ∧
    sendsInOneFramedWrite (.writeAndUpdateChannel a v) .writeAndUpdateChannel
      ⟨0x03#8, a.code ++ v.extractLsb' 12 4, v.extractLsb' 4 8, v.extractLsb' 0 4 ++ 0#4⟩

/-- 41_framer.md R142 to R144: the three control requests, owned and Idle, each send their fixed frame in one
framed write; ENCODE never gives the enable frame, and gives the other two at channel A and value 0. -/
def Obligations.ControlRequestsSendTheirFrame : Prop :=
  sendsInOneFramedWrite .enableInternalReference .enableInternalReference
    ⟨0x08#8, 0x00#8, 0x00#8, 0x01#8⟩ ∧
  sendsInOneFramedWrite .disableInternalReference .disableInternalReference
    ⟨0x08#8, 0x00#8, 0x00#8, 0x00#8⟩ ∧
  sendsInOneFramedWrite .reset .reset ⟨0x07#8, 0x00#8, 0x00#8, 0x00#8⟩ ∧
  (∀ (k : CommandKind) (a : Channel) (v : Value),
    encodeFrame k a v ≠ ⟨0x08#8, 0x00#8, 0x00#8, 0x01#8⟩) ∧
  encodeFrame .internalRef .dacA 0x0000#16 = ⟨0x08#8, 0x00#8, 0x00#8, 0x00#8⟩ ∧
  encodeFrame .reset .dacA 0x0000#16 = ⟨0x07#8, 0x00#8, 0x00#8, 0x00#8⟩

/-- 41_framer.md R145: RELEASE of an owned, Idle block returns its capabilities, with no pin or bus call. -/
def Obligations.ReleaseReturnsCapabilities : Prop :=
  ∀ (bus : BusCap) (pin : PinCap) (s : State), s.own = .owned bus pin → s.phase = .idle →
    exec .release s = .next { s with
      own := .released
      trace := s.trace ++ [.resp .release (.caps bus pin)]
      resp := some (.framer .release (.caps bus pin)) }

/-- 41_framer.md R130, R145: a block constructed and then released gives back the capabilities it was
given, and the line is high if the set-high returned Ok. -/
def Obligations.InitThenReleaseReturnsTheSameCapabilities : Prop :=
  ∀ (bus : BusCap) (pin : PinCap) (s : State) (rest : List Arrival),
    s.own.isOwned = false → s.arrivals = .term (.init bus pin) :: .term .release :: rest →
    ∃ u, stepsTo 2 s u ∧ u.own = .released ∧ u.resp = some (.framer .release (.caps bus pin)) ∧
      u.trace = s.trace ++
        [.pin .high s.pinDraw, .resp .init .ok, .resp .release (.caps bus pin)] ∧
      (s.pinDraw = .ok → u.cs = .high) ∧ u.refused = s.refused ∧ u.arrivals = rest

/-- 41_framer.md R147, 60_exceptions.md R179 (decisions D6, D7, D16; log 12): a refused request only sets the
refused mark, and every other request leaves the mark as it was. -/
def Obligations.RefusalOnlySetsTheMark : Prop :=
  ∀ (i : Instr) (s : State),
    (refusedIn i s.own s.phase → exec i s = .next { s with refused := true }) ∧
    (¬ refusedIn i s.own s.phase → ∃ t, exec i s = .next t ∧ t.refused = s.refused)

/-- 60_exceptions.md R179 (decisions D6, D7, D16; log 12): the table of which requests are refused, row by
row. -/
def Obligations.RefusalTable : Prop :=
  ∀ (i : Instr) (phase : Phase) (bus : BusCap) (pin : PinCap),
    (refusedIn i .unconstructed phase ↔ i.command?.isSome = true ∨ i = .release) ∧
    (refusedIn i .released phase ↔ i.command?.isSome = true ∨ i = .release) ∧
    (refusedIn i (.owned bus pin) .idle ↔ ∃ b p, i = .init b p) ∧
    (phase ≠ .idle → (refusedIn i (.owned bus pin) phase ↔ i.encodeOperands? = none))

/-! ### Steps of the framed write -/

/-- 41_framer.md R133, R134: the Assert step sets the line low and goes on to Write whatever the result. -/
def Obligations.AssertStepIsUnchecked : Prop :=
  ∀ s : State, s.own.isOwned = true → s.phase = .assert → s.offer = .nothing →
    ∃ t, step s = .next t ∧ t.phase = .write ∧
      t.trace = s.trace ++ [.pin .low s.pinDraw] ∧
      (s.pinDraw = .ok → t.cs = .low) ∧ (∀ p, s.pinDraw = .err p → t.cs = s.levelDraw) ∧
      t.own = s.own ∧ t.frameReg = s.frameReg ∧ t.wres = s.wres ∧ t.opReg = s.opReg ∧
      t.refused = s.refused ∧ t.resp = none ∧ t.busAnswers = s.busAnswers

/-- 41_framer.md R133, R135: the Write step makes exactly one bus call, with the latched frame. -/
def Obligations.WriteStepMakesOneBusCall : Prop :=
  ∀ (s : State) (br : BusResult), s.own.isOwned = true → s.phase = .write → s.offer = .nothing →
    s.busDraw = .returns br →
    step s = .next { s with
      wres := br, phase := .deassert, trace := s.trace ++ [.bus s.frameReg br]
      busAnswers := s.busAnswers.tail, draws := s.draws + 1
      arrivals := s.arrivals.tail, resp := none }

/-- 41_framer.md R133, R136: the Deassert step sets the line high, returns to Idle and responds with the
write's result unchanged. -/
def Obligations.DeassertStepResponds : Prop :=
  ∀ s : State, s.own.isOwned = true → s.phase = .deassert → s.offer = .nothing →
    ∃ t, step s = .next t ∧ t.phase = .idle ∧
      t.trace = s.trace ++
        [.pin .high s.pinDraw, .resp (.command s.opReg) (responseOf s.wres)] ∧
      t.resp = some (.framer (.command s.opReg) (responseOf s.wres)) ∧
      (s.wres = .ok → t.resp = some (.framer (.command s.opReg) .ok)) ∧
      (∀ e, s.wres = .err e → t.resp = some (.framer (.command s.opReg) (.err e))) ∧
      (s.pinDraw = .ok → t.cs = .high) ∧ (∀ p, s.pinDraw = .err p → t.cs = s.levelDraw) ∧
      t.own = s.own ∧ t.opReg = s.opReg ∧ t.refused = s.refused ∧ t.busAnswers = s.busAnswers

/-- 41_framer.md R135, R150 (decision D10; log 9): while a bus call does not return and no request comes, the
phase, the line and the trace stay for any number of steps, nothing is answered, and the run has not
ended. That no request comes is said of every slot of the port, the model's choice (log 21); in Write the run
has not ended whichever requests count as pending. -/
def Obligations.HangPersists : Prop :=
  ∀ (n : Nat) (s : State), s.hung = true → s.noRequestPending = true →
    ∃ t, stepsTo n s t ∧ t.phase = .write ∧ t.cs = s.cs ∧ t.trace = s.trace ∧ t.own = s.own ∧
      t.frameReg = s.frameReg ∧ t.refused = s.refused ∧ t.hung = true ∧ t.runEnded = false ∧
      (0 < n → t.resp = none)

/-- 70_reset_and_hazards.md R210 (decision D18): an operation in progress ends, with a response, when its
bus call returns and no request comes: three steps after its acceptance the run has ended. That no request
is pending is said of every slot of the port, the model's choice (log 21). -/
def Obligations.OperationEndsWhenBusReturns : Prop :=
  ∀ (s : State) (br : BusResult), s.own.isOwned = true → s.phase = .assert →
    s.noRequestPending = true → s.take.assertStep.busDraw = .returns br →
    ∃ u, stepsTo 3 s u ∧ u.runEnded = true ∧
      u.resp = some (.framer (.command s.opReg) (responseOf br))

/-- 60_exceptions.md R171, R174 and 41_framer.md R137: the response of an operation is its bus result, whatever
the pin calls return and whatever the rest of the state is. -/
def Obligations.PinErrorsNeverSurface : Prop :=
  ∀ (i : Instr) (op : PerCommand) (f : Frame) (s s' u u' : State) (br : BusResult)
    (bs bs' : List BusAnswer),
    i.command? = some (op, f) →
    s.own.isOwned = true → s.phase = .idle → s'.own.isOwned = true → s'.phase = .idle →
    s.offer = .request i → s'.offer = .request i →
    s.take.quietFor 3 = true → s'.take.quietFor 3 = true →
    s.busAnswers = .returns br :: bs → s'.busAnswers = .returns br :: bs' →
    stepsTo 4 s u → stepsTo 4 s' u' → u.resp = u'.resp ∧ u.resp = some (.framer (.command op) (responseOf br))

/-- 60_exceptions.md R175: a bus error takes the same path as a success. Of two runs of one request that
differ only in the bus call's result, the states afterwards differ only in the response and in the
events of the bus call and the response. -/
def Obligations.ErrorPathIsTheSuccessPath : Prop :=
  ∀ (i : Instr) (op : PerCommand) (f : Frame) (s u : State) (e : BusErr) (bs : List BusAnswer),
    i.command? = some (op, f) → s.own.isOwned = true → s.phase = .idle →
    s.offer = .request i → s.take.quietFor 3 = true →
    stepsTo 4 { s with busAnswers := .returns .ok :: bs } u →
    u.phase = .idle ∧ u.own = s.own ∧ ∃ pr1 pr2,
      u.trace = s.trace ++ [.pin .low pr1, .bus f .ok, .pin .high pr2, .resp (.command op) .ok] ∧
      u.resp = some (.framer (.command op) .ok) ∧
      stepsTo 4 { s with busAnswers := .returns (.err e) :: bs }
        { u with
          trace := s.trace ++
            [.pin .low pr1, .bus f (.err e), .pin .high pr2, .resp (.command op) (.err e)]
          resp := some (.framer (.command op) (.err e)) }

/-! ### The machine's step -/

/-- A request at the port is run: a typed request, or bytes that decode to one (log 10, log 11). The step
takes the slot, empties the response port and is exec of that request. -/
def Obligations.StepRunsTheOfferedRequest : Prop :=
  ∀ (s : State) (i : Instr) (bs : List Byte) (rest : List Arrival),
    (s.arrivals = .term i :: rest → step s = exec i { s with arrivals := rest, resp := none }) ∧
    (s.arrivals = .bytes bs :: rest → decode bs = .ok i →
      step s = exec i { s with arrivals := rest, resp := none }) ∧
    (∀ nbits w, decodeTableWord nbits w = some i →
      step (s.withFetchWord nbits w) = exec i { s with resp := none })

/-- Bytes that are no request are refused (41_framer.md R147, decision D8; log 11): no call, no event, no
response, and the refused mark is set. -/
def Obligations.OutOfSetBytesAreRefused : Prop :=
  ∀ (s : State) (bs : List Byte) (rest : List Arrival) (e : DecodeReject),
    s.arrivals = .bytes bs :: rest → decode bs = .error e →
    step s = .next { s with arrivals := rest, resp := none, refused := true }

/-- 60_exceptions.md R178: without a request, a block that is not owned or is Idle does nothing but take the
empty slot and empty the response port (log 9, log 13). In Assert, Write and Deassert it acts
(AssertStepIsUnchecked, WriteStepMakesOneBusCall, DeassertStepResponds). -/
def Obligations.NothingHappensWithoutARequest : Prop :=
  ∀ s : State, s.offer = .nothing → (s.own.isOwned = false ∨ s.phase = .idle) →
    step s = .next { s with arrivals := s.arrivals.tail, resp := none }

/-- No step and no request ends in a fault or a stop: each answers a next state. 60_exceptions.md R172 says that
no fault is raised. The rest is the model's: a refused request is a next state with the mark set (log 12), a
block with no step of 41_framer.md R149 waits in a step of its own (log 9), and every other case answers a
next state too (log 20). -/
def Obligations.NoStepFaults : Prop :=
  (∀ s : State, ∃ t, step s = .next t) ∧ (∀ (i : Instr) (s : State), ∃ t, exec i s = .next t)

/-- Every step of the machine is a step of the relation of 41_framer.md R149, with some draws, or it waits. The
waiting step is the model's (log 9) and no step of R149, whose text says that no other step exists: it has no
request, no step of R149 is enabled, and it changes nothing of the block but the response port, which it
empties (log 13). -/
def Obligations.StepRefinesTheRelation : Prop :=
  ∀ s t : State, step s = .next t →
    BlockStep s.offer s.block t.block ∨
    (s.offer = .nothing ∧ s.waits ∧ t.block = { s.block with resp := none })

/-- Every step of the relation of 41_framer.md R149 as `BlockStep` orders it, with any draws (log 5, log 6), is a
step of the machine from a state with that block, up to the latches where no rule reads them (log 7).
R149 enables Assert, Write and Deassert by the phase alone; here, as in the machine, they are taken in a step
without a request at the port, and a request at the port goes first (log 14). -/
def Obligations.RelationIsRealised : Prop :=
  ∀ (o : Offer) (b c : Block), BlockStep o b c →
    ∃ s t : State, s.block = b ∧ s.offer = o ∧ step s = .next t ∧ t.block.same c

/-! ### Invariants -/

/-- 10_state.md R37, 70_reset_and_hazards.md R201: the block before the first INIT, and the invariants below
hold there. -/
def Obligations.ResetState : Prop :=
  State.reset.own = .unconstructed ∧ State.reset.trace = [] ∧ State.reset.refused = false ∧
  State.reset.resp = none ∧ State.reset.lineInv ∧ State.reset.lineFollowsPin ∧ State.reset.traceInv ∧
  State.reset.busCountInv

/-- 10_state.md R38 (derived there), 70_reset_and_hazards.md R205: every step keeps the chip-select invariant. -/
def Obligations.StepKeepsLineInvariant : Prop :=
  ∀ s t : State, s.lineInv → step s = .next t → t.lineInv

/-- 10_state.md R38, 70_reset_and_hazards.md R205 (derived there): what the invariant says: high when Idle, low for
the whole bus write, if no pin call has failed. -/
def Obligations.LineInvariantMeans : Prop :=
  ∀ s : State, s.lineInv → s.own.isOwned = true → s.allPinsOk = true →
    (s.phase = .idle → s.cs = .high) ∧ (s.phase = .write → s.cs = .low) ∧
    (s.phase = .deassert → s.cs = .low)

/-- 10_state.md R29: every step keeps "after a PinSet(level) that returns Ok, cs = level". -/
def Obligations.StepKeepsLineFollowsPin : Prop :=
  ∀ s t : State, s.lineFollowsPin → step s = .next t → t.lineFollowsPin

/-- 20_memory.md R61, 41_framer.md R130, R137, R145, R148: every step keeps the trace in the grammar of
operations. -/
def Obligations.StepKeepsTraceGrammar : Prop :=
  ∀ s t : State, s.traceInv → step s = .next t → t.traceInv

/-- 95_test_vectors.md S9: in a trace of the grammar every bus call carries a frame of R148 and stands
directly after a set-low, and the event directly after it, if there is one, is a set-high. -/
def Obligations.EveryBusCallIsBracketed : Prop :=
  ∀ (pre post : List Event) (f : Frame) (r : BusResult) (p : TracePoint),
    tracePoint (pre ++ .bus f r :: post) = some p →
    busFrame f = true ∧ (∃ pre' pr, pre = pre' ++ [.pin .low pr]) ∧
    (post = [] ∨ ∃ pr post', post = .pin .high pr :: post')

/-- 20_memory.md R57: every step keeps one bus call per per-command response, so nothing is retried. -/
def Obligations.StepKeepsOneBusCallPerResponse : Prop :=
  ∀ s t : State, s.busCountInv → step s = .next t → t.busCountInv

/-- 41_framer.md R147: the refused mark is never cleared. 10_state.md R28: the trace is only appended to. -/
def Obligations.MarkAndTraceOnlyGrow : Prop :=
  ∀ s t : State, step s = .next t →
    (s.refused = true → t.refused = true) ∧ (∃ es, t.trace = s.trace ++ es)

/-- 60_exceptions.md R179: "A mode is entered only by INIT and left only by RELEASE." -/
def Obligations.OwnershipChangesOnlyByInitAndRelease : Prop :=
  ∀ s t : State, step s = .next t → t.own ≠ s.own →
    (∃ bus pin, s.offer = .request (.init bus pin) ∧ s.own.isOwned = false ∧ t.own = .owned bus pin) ∨
    (s.offer = .request .release ∧ s.own.isOwned = true ∧ s.phase = .idle ∧ t.own = .released)

/-- 41_framer.md R149: the phase moves only along the order Idle, Assert, Write, Deassert, Idle while owned. -/
def Obligations.PhaseFollowsItsOrder : Prop :=
  ∀ s t : State, s.own.isOwned = true → step s = .next t → t.phase ≠ s.phase →
    (s.phase = .idle ∧ t.phase = .assert) ∨ (s.phase = .assert ∧ t.phase = .write) ∨
    (s.phase = .write ∧ t.phase = .deassert) ∨ (s.phase = .deassert ∧ t.phase = .idle)
end

