-- ==== Sys2Proof/Laws/Decode.lean ====
section
/-! SUPPORT. The codes and the frame reader, once: each code has one kind or channel, and reading a frame is
the inverse of packing it. -/

namespace Sys2Proof

@[simp] theorem ofOpc?_opc (k : CommandKind) : CommandKind.ofOpc? k.opc = some k := by
  cases k <;> decide

@[simp] theorem ofCode?_code (a : Channel) : Channel.ofCode? a.code = some a := by
  cases a <;> decide

/-- The kind of an opcode has that opcode. -/
theorem opc_of_ofOpc? (c : BitVec 4) (k : CommandKind) (h : CommandKind.ofOpc? c = some k) :
    k.opc = c := by
  simpa using List.find?_some h

/-- The channel of an address code has that code. -/
theorem code_of_ofCode? (c : BitVec 4) (a : Channel) (h : Channel.ofCode? c = some a) :
    a.code = c := by
  simpa using List.find?_some h

@[simp] theorem hiNibble_append : ∀ x y : BitVec 4, hiNibble (x ++ y) = x := by decide

@[simp] theorem loNibble_append : ∀ x y : BitVec 4, loNibble (x ++ y) = y := by decide

/-- A byte is its two nibbles. -/
theorem nibbles_eq : ∀ b : Byte, hiNibble b ++ loNibble b = b := by decide

@[simp] theorem hiNibble_zeroExtend : ∀ x : BitVec 4, hiNibble (x.zeroExtend 8) = 0#4 := by decide

@[simp] theorem loNibble_zeroExtend : ∀ x : BitVec 4, loNibble (x.zeroExtend 8) = x := by decide

/-- A byte with a zero high nibble is its low nibble. -/
theorem zeroExtend_loNibble : ∀ b : Byte, hiNibble b = 0#4 → (loNibble b).zeroExtend 8 = b := by decide

/-- The three pieces of a value, put together again. -/
theorem value_pieces (v : Value) :
    v.extractLsb' 12 4 ++ v.extractLsb' 4 8 ++ v.extractLsb' 0 4 = v := by
  apply BitVec.eq_of_getLsbD_eq
  intro i hi
  simp only [BitVec.getLsbD_append, BitVec.getLsbD_extractLsb']
  split
  · simp [*]
  · split
    · next h1 h2 => simp [h2, show 4 + (i - 4) = i by omega]
    · next h1 h2 =>
      simp [show 12 + (i - 4 - 8) = i by omega, show i - 4 - 8 < 4 by omega]

/-- The pieces of a value put together are the pieces again. -/
theorem pieces_of_append (x : BitVec 4) (y : BitVec 8) (z : BitVec 4) :
    (x ++ y ++ z).extractLsb' 12 4 = x ∧ (x ++ y ++ z).extractLsb' 4 8 = y ∧
      (x ++ y ++ z).extractLsb' 0 4 = z := by
  refine ⟨?_, ?_, ?_⟩ <;> apply BitVec.eq_of_getLsbD_eq <;> intro i hi <;>
    simp only [BitVec.getLsbD_append, BitVec.getLsbD_extractLsb']
  · simp [hi, show ¬ (12 + i < 4) by omega, show ¬ (12 + i - 4 < 8) by omega,
      show 12 + i - 4 - 8 = i by omega]
  · simp [hi]
  · simp [hi]

/-- Reading a frame gives `(k, a, v)` exactly when the frame is theirs. -/
theorem readGeneric_ok (f : Frame) (k : CommandKind) (a : Channel) (v : Value) :
    readGeneric f = .ok (k, a, v) ↔ f = encodeFrame k a v := by
  constructor
  · intro h
    unfold readGeneric at h
    split at h
    · cases h
    · next h0 =>
      split at h
      · cases h
      · next h3 =>
        split at h
        · cases h
        · next k' hk =>
          split at h
          · cases h
          · next a' ha =>
            injection h with h
            obtain ⟨rfl, rfl, rfl⟩ : k' = k ∧ a' = a ∧ f.valueField = v := by simpa using h
            have hk := opc_of_ofOpc? _ _ hk
            have ha := code_of_ofCode? _ _ ha
            obtain ⟨h12, h4, h0'⟩ := pieces_of_append (loNibble f.b1) f.b2 (hiNibble f.b3)
            have e3 := nibbles_eq f.b3
            rw [not_not.1 h3] at e3
            cases f
            simp only [encodeFrame, Frame.valueField, hk, ha, h12, h4, h0', Frame.opcodeField,
              Frame.addressField, Frame.mk.injEq] at *
            exact ⟨(zeroExtend_loNibble _ (not_not.1 h0)).symm, (nibbles_eq _).symm, trivial, e3.symm⟩
  · rintro rfl
    simp [readGeneric, encodeFrame, Frame.opcodeField, Frame.addressField, Frame.valueField, value_pieces]

/-- Appending as numbers. -/
theorem toNat_append_eq {n m : Nat} (x : BitVec n) (y : BitVec m) :
    (x ++ y).toNat = x.toNat * 2 ^ m + y.toNat := by
  rw [BitVec.toNat_append, Nat.shiftLeft_eq, Nat.mul_comm, ← Nat.two_pow_add_eq_or_of_lt y.isLt]

/-- The opcodes of no command kind (30_encoding.md R83). -/
theorem ofOpc?_eq_none : ∀ c : BitVec 4, CommandKind.ofOpc? c = none ↔ 8 < c.toNat := by decide

/-- The address codes of no channel (30_encoding.md R84). -/
theorem ofCode?_eq_none :
    ∀ c : BitVec 4, Channel.ofCode? c = none ↔ 8 ≤ c.toNat ∧ c.toNat ≤ 14 := by decide

/-- A data request sends exactly the format G frames of its kind. -/
theorem sends_data (op : PerCommand) (k : CommandKind) (hk : op.kind? = some k) (f : Frame) :
    op.sends f = true ↔ ∃ a v, f = encodeFrame k a v := by
  unfold PerCommand.sends
  rw [hk]
  constructor
  · intro h
    dsimp only at h
    split at h
    · next k' a v e =>
      have hf := (readGeneric_ok _ _ _ _).1 e
      simp only [beq_iff_eq] at h
      exact ⟨a, v, h ▸ hf⟩
    · cases h
  · rintro ⟨a, v, rfl⟩
    rw [(readGeneric_ok _ k a v).2 rfl]
    simp

end Sys2Proof
end

