-- ==== Sys2Proof/Laws/State.lean ====
section
/-! SUPPORT. One lemma per field per update of the state: what each shared operation leaves in each field.
All are true by rfl and tagged simp, so that no later proof unfolds a record update. -/

namespace Sys2Proof.Machine

@[simp] theorem take_own (s : State) : s.take.own = s.own := rfl
@[simp] theorem take_phase (s : State) : s.take.phase = s.phase := rfl
@[simp] theorem take_frameReg (s : State) : s.take.frameReg = s.frameReg := rfl
@[simp] theorem take_wres (s : State) : s.take.wres = s.wres := rfl
@[simp] theorem take_trace (s : State) : s.take.trace = s.trace := rfl
@[simp] theorem take_cs (s : State) : s.take.cs = s.cs := rfl
@[simp] theorem take_refused (s : State) : s.take.refused = s.refused := rfl
@[simp] theorem take_opReg (s : State) : s.take.opReg = s.opReg := rfl
@[simp] theorem take_resp (s : State) : s.take.resp = none := rfl
@[simp] theorem take_arrivals (s : State) : s.take.arrivals = s.arrivals.tail := rfl
@[simp] theorem take_pinAnswers (s : State) : s.take.pinAnswers = s.pinAnswers := rfl
@[simp] theorem take_levelAnswers (s : State) : s.take.levelAnswers = s.levelAnswers := rfl
@[simp] theorem take_busAnswers (s : State) : s.take.busAnswers = s.busAnswers := rfl
@[simp] theorem take_draws (s : State) : s.take.draws = s.draws := rfl

@[simp] theorem pinSet_own (level : Level) (s : State) : (s.pinSet level).own = s.own := rfl
@[simp] theorem pinSet_phase (level : Level) (s : State) : (s.pinSet level).phase = s.phase := rfl
@[simp] theorem pinSet_frameReg (level : Level) (s : State) : (s.pinSet level).frameReg = s.frameReg := rfl
@[simp] theorem pinSet_wres (level : Level) (s : State) : (s.pinSet level).wres = s.wres := rfl
@[simp] theorem pinSet_trace (level : Level) (s : State) : (s.pinSet level).trace = s.trace ++ [.pin level s.pinDraw] := rfl
@[simp] theorem pinSet_cs (level : Level) (s : State) : (s.pinSet level).cs = levelAfter level s.pinDraw s.levelDraw := rfl
@[simp] theorem pinSet_refused (level : Level) (s : State) : (s.pinSet level).refused = s.refused := rfl
@[simp] theorem pinSet_opReg (level : Level) (s : State) : (s.pinSet level).opReg = s.opReg := rfl
@[simp] theorem pinSet_resp (level : Level) (s : State) : (s.pinSet level).resp = s.resp := rfl
@[simp] theorem pinSet_arrivals (level : Level) (s : State) : (s.pinSet level).arrivals = s.arrivals := rfl
@[simp] theorem pinSet_pinAnswers (level : Level) (s : State) : (s.pinSet level).pinAnswers = s.pinAnswers.tail := rfl
@[simp] theorem pinSet_levelAnswers (level : Level) (s : State) : (s.pinSet level).levelAnswers = levelsAfter s.pinDraw s.levelAnswers := rfl
@[simp] theorem pinSet_busAnswers (level : Level) (s : State) : (s.pinSet level).busAnswers = s.busAnswers := rfl
@[simp] theorem pinSet_draws (level : Level) (s : State) : (s.pinSet level).draws = s.draws + 1 := rfl

@[simp] theorem busWrite_own (f : Frame) (r : BusResult) (s : State) : (s.busWrite f r).own = s.own := rfl
@[simp] theorem busWrite_phase (f : Frame) (r : BusResult) (s : State) : (s.busWrite f r).phase = s.phase := rfl
@[simp] theorem busWrite_frameReg (f : Frame) (r : BusResult) (s : State) : (s.busWrite f r).frameReg = s.frameReg := rfl
@[simp] theorem busWrite_wres (f : Frame) (r : BusResult) (s : State) : (s.busWrite f r).wres = r := rfl
@[simp] theorem busWrite_trace (f : Frame) (r : BusResult) (s : State) : (s.busWrite f r).trace = s.trace ++ [.bus f r] := rfl
@[simp] theorem busWrite_cs (f : Frame) (r : BusResult) (s : State) : (s.busWrite f r).cs = s.cs := rfl
@[simp] theorem busWrite_refused (f : Frame) (r : BusResult) (s : State) : (s.busWrite f r).refused = s.refused := rfl
@[simp] theorem busWrite_opReg (f : Frame) (r : BusResult) (s : State) : (s.busWrite f r).opReg = s.opReg := rfl
@[simp] theorem busWrite_resp (f : Frame) (r : BusResult) (s : State) : (s.busWrite f r).resp = s.resp := rfl
@[simp] theorem busWrite_arrivals (f : Frame) (r : BusResult) (s : State) : (s.busWrite f r).arrivals = s.arrivals := rfl
@[simp] theorem busWrite_pinAnswers (f : Frame) (r : BusResult) (s : State) : (s.busWrite f r).pinAnswers = s.pinAnswers := rfl
@[simp] theorem busWrite_levelAnswers (f : Frame) (r : BusResult) (s : State) : (s.busWrite f r).levelAnswers = s.levelAnswers := rfl
@[simp] theorem busWrite_busAnswers (f : Frame) (r : BusResult) (s : State) : (s.busWrite f r).busAnswers = s.busAnswers.tail := rfl
@[simp] theorem busWrite_draws (f : Frame) (r : BusResult) (s : State) : (s.busWrite f r).draws = s.draws + 1 := rfl

@[simp] theorem respond_own (op : FramerOp) (r : FramerResult) (s : State) : (s.respond op r).own = s.own := rfl
@[simp] theorem respond_phase (op : FramerOp) (r : FramerResult) (s : State) : (s.respond op r).phase = s.phase := rfl
@[simp] theorem respond_frameReg (op : FramerOp) (r : FramerResult) (s : State) : (s.respond op r).frameReg = s.frameReg := rfl
@[simp] theorem respond_wres (op : FramerOp) (r : FramerResult) (s : State) : (s.respond op r).wres = s.wres := rfl
@[simp] theorem respond_trace (op : FramerOp) (r : FramerResult) (s : State) : (s.respond op r).trace = s.trace ++ [.resp op r] := rfl
@[simp] theorem respond_cs (op : FramerOp) (r : FramerResult) (s : State) : (s.respond op r).cs = s.cs := rfl
@[simp] theorem respond_refused (op : FramerOp) (r : FramerResult) (s : State) : (s.respond op r).refused = s.refused := rfl
@[simp] theorem respond_opReg (op : FramerOp) (r : FramerResult) (s : State) : (s.respond op r).opReg = s.opReg := rfl
@[simp] theorem respond_resp (op : FramerOp) (r : FramerResult) (s : State) : (s.respond op r).resp = some (.framer op r) := rfl
@[simp] theorem respond_arrivals (op : FramerOp) (r : FramerResult) (s : State) : (s.respond op r).arrivals = s.arrivals := rfl
@[simp] theorem respond_pinAnswers (op : FramerOp) (r : FramerResult) (s : State) : (s.respond op r).pinAnswers = s.pinAnswers := rfl
@[simp] theorem respond_levelAnswers (op : FramerOp) (r : FramerResult) (s : State) : (s.respond op r).levelAnswers = s.levelAnswers := rfl
@[simp] theorem respond_busAnswers (op : FramerOp) (r : FramerResult) (s : State) : (s.respond op r).busAnswers = s.busAnswers := rfl
@[simp] theorem respond_draws (op : FramerOp) (r : FramerResult) (s : State) : (s.respond op r).draws = s.draws := rfl

@[simp] theorem answerFrame_own (f : Frame) (s : State) : (s.answerFrame f).own = s.own := rfl
@[simp] theorem answerFrame_phase (f : Frame) (s : State) : (s.answerFrame f).phase = s.phase := rfl
@[simp] theorem answerFrame_frameReg (f : Frame) (s : State) : (s.answerFrame f).frameReg = s.frameReg := rfl
@[simp] theorem answerFrame_wres (f : Frame) (s : State) : (s.answerFrame f).wres = s.wres := rfl
@[simp] theorem answerFrame_trace (f : Frame) (s : State) : (s.answerFrame f).trace = s.trace := rfl
@[simp] theorem answerFrame_cs (f : Frame) (s : State) : (s.answerFrame f).cs = s.cs := rfl
@[simp] theorem answerFrame_refused (f : Frame) (s : State) : (s.answerFrame f).refused = s.refused := rfl
@[simp] theorem answerFrame_opReg (f : Frame) (s : State) : (s.answerFrame f).opReg = s.opReg := rfl
@[simp] theorem answerFrame_resp (f : Frame) (s : State) : (s.answerFrame f).resp = some (.frame f) := rfl
@[simp] theorem answerFrame_arrivals (f : Frame) (s : State) : (s.answerFrame f).arrivals = s.arrivals := rfl
@[simp] theorem answerFrame_pinAnswers (f : Frame) (s : State) : (s.answerFrame f).pinAnswers = s.pinAnswers := rfl
@[simp] theorem answerFrame_levelAnswers (f : Frame) (s : State) : (s.answerFrame f).levelAnswers = s.levelAnswers := rfl
@[simp] theorem answerFrame_busAnswers (f : Frame) (s : State) : (s.answerFrame f).busAnswers = s.busAnswers := rfl
@[simp] theorem answerFrame_draws (f : Frame) (s : State) : (s.answerFrame f).draws = s.draws := rfl

@[simp] theorem dropLatches_own (s : State) : s.dropLatches.own = s.own := rfl
@[simp] theorem dropLatches_phase (s : State) : s.dropLatches.phase = s.phase := rfl
@[simp] theorem dropLatches_frameReg (s : State) : s.dropLatches.frameReg = Config.staleFrame s.draws := rfl
@[simp] theorem dropLatches_wres (s : State) : s.dropLatches.wres = Config.staleResult s.draws := rfl
@[simp] theorem dropLatches_trace (s : State) : s.dropLatches.trace = s.trace := rfl
@[simp] theorem dropLatches_cs (s : State) : s.dropLatches.cs = s.cs := rfl
@[simp] theorem dropLatches_refused (s : State) : s.dropLatches.refused = s.refused := rfl
@[simp] theorem dropLatches_opReg (s : State) : s.dropLatches.opReg = s.opReg := rfl
@[simp] theorem dropLatches_resp (s : State) : s.dropLatches.resp = s.resp := rfl
@[simp] theorem dropLatches_arrivals (s : State) : s.dropLatches.arrivals = s.arrivals := rfl
@[simp] theorem dropLatches_pinAnswers (s : State) : s.dropLatches.pinAnswers = s.pinAnswers := rfl
@[simp] theorem dropLatches_levelAnswers (s : State) : s.dropLatches.levelAnswers = s.levelAnswers := rfl
@[simp] theorem dropLatches_busAnswers (s : State) : s.dropLatches.busAnswers = s.busAnswers := rfl
@[simp] theorem dropLatches_draws (s : State) : s.dropLatches.draws = s.draws + 1 := rfl

@[simp] theorem refuse_own (reason : RefuseReason) (s : State) : (s.refuse reason).own = s.own := rfl
@[simp] theorem refuse_phase (reason : RefuseReason) (s : State) : (s.refuse reason).phase = s.phase := rfl
@[simp] theorem refuse_frameReg (reason : RefuseReason) (s : State) : (s.refuse reason).frameReg = s.frameReg := rfl
@[simp] theorem refuse_wres (reason : RefuseReason) (s : State) : (s.refuse reason).wres = s.wres := rfl
@[simp] theorem refuse_trace (reason : RefuseReason) (s : State) : (s.refuse reason).trace = s.trace := rfl
@[simp] theorem refuse_cs (reason : RefuseReason) (s : State) : (s.refuse reason).cs = s.cs := rfl
@[simp] theorem refuse_refused (reason : RefuseReason) (s : State) : (s.refuse reason).refused = true := rfl
@[simp] theorem refuse_opReg (reason : RefuseReason) (s : State) : (s.refuse reason).opReg = s.opReg := rfl
@[simp] theorem refuse_resp (reason : RefuseReason) (s : State) : (s.refuse reason).resp = s.resp := rfl
@[simp] theorem refuse_arrivals (reason : RefuseReason) (s : State) : (s.refuse reason).arrivals = s.arrivals := rfl
@[simp] theorem refuse_pinAnswers (reason : RefuseReason) (s : State) : (s.refuse reason).pinAnswers = s.pinAnswers := rfl
@[simp] theorem refuse_levelAnswers (reason : RefuseReason) (s : State) : (s.refuse reason).levelAnswers = s.levelAnswers := rfl
@[simp] theorem refuse_busAnswers (reason : RefuseReason) (s : State) : (s.refuse reason).busAnswers = s.busAnswers := rfl
@[simp] theorem refuse_draws (reason : RefuseReason) (s : State) : (s.refuse reason).draws = s.draws := rfl

@[simp] theorem latchCommand_own (op : PerCommand) (f : Frame) (s : State) : (s.latchCommand op f).own = s.own := rfl
@[simp] theorem latchCommand_phase (op : PerCommand) (f : Frame) (s : State) : (s.latchCommand op f).phase = .assert := rfl
@[simp] theorem latchCommand_frameReg (op : PerCommand) (f : Frame) (s : State) : (s.latchCommand op f).frameReg = f := rfl
@[simp] theorem latchCommand_wres (op : PerCommand) (f : Frame) (s : State) : (s.latchCommand op f).wres = s.wres := rfl
@[simp] theorem latchCommand_trace (op : PerCommand) (f : Frame) (s : State) : (s.latchCommand op f).trace = s.trace := rfl
@[simp] theorem latchCommand_cs (op : PerCommand) (f : Frame) (s : State) : (s.latchCommand op f).cs = s.cs := rfl
@[simp] theorem latchCommand_refused (op : PerCommand) (f : Frame) (s : State) : (s.latchCommand op f).refused = s.refused := rfl
@[simp] theorem latchCommand_opReg (op : PerCommand) (f : Frame) (s : State) : (s.latchCommand op f).opReg = op := rfl
@[simp] theorem latchCommand_resp (op : PerCommand) (f : Frame) (s : State) : (s.latchCommand op f).resp = s.resp := rfl
@[simp] theorem latchCommand_arrivals (op : PerCommand) (f : Frame) (s : State) : (s.latchCommand op f).arrivals = s.arrivals := rfl
@[simp] theorem latchCommand_pinAnswers (op : PerCommand) (f : Frame) (s : State) : (s.latchCommand op f).pinAnswers = s.pinAnswers := rfl
@[simp] theorem latchCommand_levelAnswers (op : PerCommand) (f : Frame) (s : State) : (s.latchCommand op f).levelAnswers = s.levelAnswers := rfl
@[simp] theorem latchCommand_busAnswers (op : PerCommand) (f : Frame) (s : State) : (s.latchCommand op f).busAnswers = s.busAnswers := rfl
@[simp] theorem latchCommand_draws (op : PerCommand) (f : Frame) (s : State) : (s.latchCommand op f).draws = s.draws := rfl

end Sys2Proof.Machine
end

