-- ==== Sys2Proof/Laws/Ops.lean ====
section
/-! SUPPORT. For each shared operation, once, everything it can do: the gate, the external calls, the three
steps of the framed write, construction and release. -/

namespace Sys2Proof.Machine

@[simp] theorem isOwned_owned (bus : BusCap) (pin : PinCap) :
    (Ownership.owned bus pin).isOwned = true := rfl

@[simp] theorem isOwned_unconstructed : Ownership.unconstructed.isOwned = false := rfl

@[simp] theorem isOwned_released : Ownership.released.isOwned = false := rfl

/-- An owned block carries its two capabilities. -/
theorem isOwned_iff (o : Ownership) : o.isOwned = true ↔ ∃ bus pin, o = .owned bus pin := by
  cases o <;> simp

@[simp] theorem levelAfter_ok (want drawn : Level) : levelAfter want .ok drawn = want := rfl

@[simp] theorem levelAfter_err (want drawn : Level) (p : PinErr) :
    levelAfter want (.err p) drawn = drawn := rfl

@[simp] theorem levelsAfter_ok (ls : List Level) : levelsAfter .ok ls = ls := rfl

@[simp] theorem levelsAfter_err (p : PinErr) (ls : List Level) :
    levelsAfter (.err p) ls = ls.tail := rfl

@[simp] theorem responseOf_ok : responseOf .ok = .ok := rfl

@[simp] theorem responseOf_err (e : BusErr) : responseOf (.err e) = .err e := rfl

/-- A scripted pin answer is the one the next pin call returns. -/
theorem pinDraw_cons (s : State) (r : PinResult) (rs : List PinResult) (h : s.pinAnswers = r :: rs) :
    s.pinDraw = r := by
  simp [State.pinDraw, h]

/-- A scripted level is the one the line takes when the next pin call fails. -/
theorem levelDraw_cons (s : State) (l : Level) (ls : List Level) (h : s.levelAnswers = l :: ls) :
    s.levelDraw = l := by
  simp [State.levelDraw, h]

/-- A scripted bus answer is the outcome of the next bus call. -/
theorem busDraw_cons (s : State) (r : BusAnswer) (rs : List BusAnswer) (h : s.busAnswers = r :: rs) :
    s.busDraw = r := by
  simp [State.busDraw, h]

/-- Taking the offer of a step changes no external answer. -/
@[simp] theorem take_pinDraw (s : State) : s.take.pinDraw = s.pinDraw := rfl

@[simp] theorem take_levelDraw (s : State) : s.take.levelDraw = s.levelDraw := rfl

@[simp] theorem take_busDraw (s : State) : s.take.busDraw = s.busDraw := rfl

/-- An ENCODE request passes the gate in every state. -/
@[simp] theorem gate_encode (own : Ownership) (phase : Phase) : gate .encode own phase = none := rfl

/-- INIT passes the gate exactly when the block is not owned. -/
theorem gate_init (own : Ownership) (phase : Phase) :
    gate .init own phase = if own.isOwned then some .initWhileOwned else none := rfl

/-- A per-command request passes the gate exactly when the block is owned and Idle. -/
theorem gate_perCommand_none (own : Ownership) (phase : Phase) :
    gate .perCommand own phase = none ↔ own.isOwned = true ∧ phase = .idle := by
  cases h : own.isOwned <;> by_cases hp : phase = .idle <;> simp [gate, h, hp]

/-- RELEASE passes the gate exactly when the block is owned and Idle. -/
theorem gate_release_none (own : Ownership) (phase : Phase) :
    gate .release own phase = none ↔ own.isOwned = true ∧ phase = .idle := by
  cases h : own.isOwned <;> by_cases hp : phase = .idle <;> simp [gate, h, hp]

/-- What a gated request does: its act if the gate lets it through, else only the refused mark. -/
theorem gated_spec (c : RequestClass) (act : State → State) (s : State) :
    (gate c s.own s.phase = none ∧ s.gated c act = act s) ∨
    (gate c s.own s.phase ≠ none ∧ s.gated c act = { s with refused := true }) := by
  unfold State.gated
  cases h : gate c s.own s.phase with
  | none => exact .inl ⟨rfl, rfl⟩
  | some r => exact .inr ⟨by simp, rfl⟩

/-- An ENCODE request changes the response port and nothing else. -/
theorem answerEncode_eq (k : CommandKind) (a : Channel) (v : Value) (s : State) :
    s.answerEncode k a v = { s with resp := some (.frame (encodeFrame k a v)) } := rfl

/-- A per-command request: latched when owned and Idle, else only the refused mark. -/
theorem acceptCommand_spec (op : PerCommand) (f : Frame) (s : State) :
    (s.own.isOwned = true ∧ s.phase = .idle ∧ s.acceptCommand op f = s.latchCommand op f) ∨
    ((s.own.isOwned = false ∨ s.phase ≠ .idle) ∧
      s.acceptCommand op f = { s with refused := true }) := by
  rcases gated_spec .perCommand (State.latchCommand op f) s with ⟨h, e⟩ | ⟨h, e⟩
  · obtain ⟨ho, hp⟩ := (gate_perCommand_none _ _).1 h
    exact .inl ⟨ho, hp, e⟩
  · rw [Ne, gate_perCommand_none] at h
    refine .inr ⟨?_, e⟩
    cases ho : s.own.isOwned
    · exact .inl rfl
    · exact .inr (fun hp => h ⟨ho, hp⟩)

/-- INIT: constructed when not owned, else only the refused mark. -/
theorem gated_construct_spec (bus : BusCap) (pin : PinCap) (s : State) :
    (s.own.isOwned = false ∧ s.gated .init (State.construct bus pin) = s.construct bus pin) ∨
    (s.own.isOwned = true ∧ s.gated .init (State.construct bus pin) = { s with refused := true }) := by
  rcases gated_spec .init (State.construct bus pin) s with ⟨h, e⟩ | ⟨h, e⟩
  · exact .inl ⟨by simpa [gate_init] using h, e⟩
  · exact .inr ⟨by simpa [gate_init] using h, e⟩

/-- RELEASE: the capabilities given back when owned and Idle, else only the refused mark. -/
theorem gated_giveBack_spec (s : State) :
    (∃ bus pin, s.own = .owned bus pin ∧ s.phase = .idle ∧
      s.gated .release State.giveBack =
        ({ s with own := .released } : State).respond .release (.caps bus pin)) ∨
    ((s.own.isOwned = false ∨ s.phase ≠ .idle) ∧
      s.gated .release State.giveBack = { s with refused := true }) := by
  rcases gated_spec .release State.giveBack s with ⟨h, e⟩ | ⟨h, e⟩
  · obtain ⟨ho, hp⟩ := (gate_release_none _ _).1 h
    obtain ⟨bus, pin, hbp⟩ := (isOwned_iff _).1 ho
    refine .inl ⟨bus, pin, hbp, hp, e.trans ?_⟩
    simp [State.giveBack, hbp]
  · rw [Ne, gate_release_none] at h
    refine .inr ⟨?_, e⟩
    cases ho : s.own.isOwned
    · exact .inl rfl
    · exact .inr (fun hp => h ⟨ho, hp⟩)

/-- The Write step: one bus call if it returns, nothing if it does not. -/
theorem writeStep_spec (s : State) :
    (s.busDraw = .never ∧ s.writeStep = s) ∨
    (∃ r, s.busDraw = .returns r ∧
      s.writeStep = { s.busWrite s.frameReg r with phase := .deassert }) := by
  unfold State.writeStep
  cases h : s.busDraw with
  | never => exact .inl ⟨rfl, rfl⟩
  | returns r => exact .inr ⟨r, rfl, rfl⟩

/-- What a step without a request can do. -/
theorem advance_spec (s : State) :
    ((s.own.isOwned = false ∨ s.phase = .idle ∨ (s.phase = .write ∧ s.busDraw = .never)) ∧
      s.advance = s) ∨
    (s.own.isOwned = true ∧ s.phase = .assert ∧ s.advance = s.assertStep) ∨
    (∃ r, s.own.isOwned = true ∧ s.phase = .write ∧ s.busDraw = .returns r ∧
      s.advance = { s.busWrite s.frameReg r with phase := .deassert }) ∨
    (s.own.isOwned = true ∧ s.phase = .deassert ∧ s.advance = s.deassertStep) := by
  cases ho : s.own with
  | unconstructed => exact .inl ⟨.inl rfl, by simp [State.advance, ho]⟩
  | released => exact .inl ⟨.inl rfl, by simp [State.advance, ho]⟩
  | owned bus pin =>
    cases hp : s.phase with
    | idle => exact .inl ⟨.inr (.inl rfl), by simp [State.advance, ho, hp]⟩
    | assert => exact .inr (.inl ⟨rfl, rfl, by simp [State.advance, ho, hp]⟩)
    | deassert => exact .inr (.inr (.inr ⟨rfl, rfl, by simp [State.advance, ho, hp]⟩))
    | write =>
      rcases writeStep_spec s with ⟨hb, e⟩ | ⟨r, hb, e⟩
      · exact .inl ⟨.inr (.inr ⟨rfl, hb⟩), by simp [State.advance, ho, hp, e]⟩
      · exact .inr (.inr (.inl ⟨r, rfl, rfl, hb, by simp [State.advance, ho, hp, e]⟩))

end Sys2Proof.Machine
end

