-- ==== Sys2Proof/Laws/PerInstr.lean ====
section
/-! SUPPORT. Per-instruction facts about requests as terms: a row's bytes are one 4-byte frame
(30_encoding.md R71). -/

namespace Sys2Proof.Laws.FourBytes

/-- If a request has bytes in the opcode table, they are exactly 4 (30_encoding.md R71). -/
def Statement (i : Instr) : Prop :=
  ∀ bs, encode i = some bs → bs.length = 4

/-- The bytes of a row are the bytes of its frame. -/
theorem of_tableFrame (i : Instr) : Statement i := by
  intro bs h
  obtain ⟨f, -, rfl⟩ := Option.map_eq_some_iff.1 h
  rfl

theorem writeInputRegister (a : Channel) (v : Value) : Statement (.writeInputRegister a v) := of_tableFrame _
theorem updateDacRegister (a : Channel) (v : Value) : Statement (.updateDacRegister a v) := of_tableFrame _
theorem writeInputUpdateAll (a : Channel) (v : Value) : Statement (.writeInputUpdateAll a v) := of_tableFrame _
theorem writeAndUpdateChannel (a : Channel) (v : Value) : Statement (.writeAndUpdateChannel a v) := of_tableFrame _
theorem encodePowerControl (a : Channel) (v : Value) : Statement (.encodePowerControl a v) := of_tableFrame _
theorem encodeLoadClearCode (a : Channel) (v : Value) : Statement (.encodeLoadClearCode a v) := of_tableFrame _
theorem encodeLoadLdac (a : Channel) (v : Value) : Statement (.encodeLoadLdac a v) := of_tableFrame _
theorem reset : Statement .reset := of_tableFrame _
theorem encodeReset (a : Channel) (v : Value) : Statement (.encodeReset a v) := of_tableFrame _
theorem enableInternalReference : Statement .enableInternalReference := of_tableFrame _
theorem disableInternalReference : Statement .disableInternalReference := of_tableFrame _
theorem encodeInternalRef (a : Channel) (v : Value) : Statement (.encodeInternalRef a v) := of_tableFrame _
theorem init (bus : BusCap) (pin : PinCap) : Statement (.init bus pin) := of_tableFrame _
theorem release : Statement .release := of_tableFrame _
theorem encode (k : CommandKind) (a : Channel) (v : Value) : Statement (.encode k a v) := of_tableFrame _

end Sys2Proof.Laws.FourBytes
end

