-- ==== Sys2Proof/Laws/Step.lean ====
section
/-! SUPPORT. What exec and step can do, once: every request by its class, and the cases of a step. -/

namespace Sys2Proof.Machine

/-- A per-command request is the acceptance of its frame. -/
theorem exec_command (i : Instr) (op : PerCommand) (f : Frame) (s : State)
    (h : i.command? = some (op, f)) : exec i s = .next (s.acceptCommand op f) := by
  cases i <;> simp [Instr.command?] at h <;> obtain ⟨rfl, rfl⟩ := h <;> rfl

/-- An ENCODE request changes the response port and nothing else. -/
theorem exec_encode (i : Instr) (k : CommandKind) (a : Channel) (v : Value) (s : State)
    (h : i.encodeOperands? = some (k, a, v)) :
    exec i s = .next { s with resp := some (.frame (encodeFrame k a v)) } := by
  cases i <;> simp [Instr.encodeOperands?] at h <;> obtain ⟨rfl, rfl, rfl⟩ := h <;> rfl

/-- Every request is one of four classes. -/
theorem instr_class (i : Instr) :
    (∃ op f, i.command? = some (op, f)) ∨ (∃ k a v, i.encodeOperands? = some (k, a, v)) ∨
    (∃ bus pin, i = .init bus pin) ∨ i = .release := by
  cases i <;> simp [Instr.command?, Instr.encodeOperands?]

/-- What a request can do: it is accepted, answered, constructs, gives back, or is refused. -/
theorem exec_cases (i : Instr) (s t : State) (h : exec i s = .next t) :
    (∃ op f, i.command? = some (op, f) ∧ s.own.isOwned = true ∧ s.phase = .idle ∧
      t = s.latchCommand op f) ∨
    (∃ k a v, i.encodeOperands? = some (k, a, v) ∧ t = s.answerFrame (encodeFrame k a v)) ∨
    (∃ bus pin, i = .init bus pin ∧ s.own.isOwned = false ∧ t = s.construct bus pin) ∨
    (∃ bus pin, i = .release ∧ s.own = .owned bus pin ∧ s.phase = .idle ∧
      t = ({ s with own := .released } : State).respond .release (.caps bus pin)) ∨
    (refusedIn i s.own s.phase ∧ t = { s with refused := true }) := by
  rcases instr_class i with ⟨op, f, hc⟩ | ⟨k, a, v, he⟩ | ⟨bus, pin, rfl⟩ | rfl
  · rw [exec_command i op f s hc] at h
    injection h with h
    rcases acceptCommand_spec op f s with ⟨ho, hp, e⟩ | ⟨hr, e⟩
    · exact .inl ⟨op, f, hc, ho, hp, h.symm.trans e⟩
    · exact .inr (.inr (.inr (.inr ⟨.inl ⟨.inl (by simp [hc]), hr⟩, h.symm.trans e⟩)))
  · rw [exec_encode i k a v s he] at h
    injection h with h
    exact .inr (.inl ⟨k, a, v, he, h.symm⟩)
  · injection (show Host.Outcome.next _ = Host.Outcome.next t from h) with h
    rcases gated_construct_spec bus pin s with ⟨ho, e⟩ | ⟨ho, e⟩
    · exact .inr (.inr (.inl ⟨bus, pin, rfl, ho, h.symm.trans e⟩))
    · exact .inr (.inr (.inr (.inr ⟨.inr ⟨⟨bus, pin, rfl⟩, ho⟩, h.symm.trans e⟩)))
  · injection (show Host.Outcome.next _ = Host.Outcome.next t from h) with h
    rcases gated_giveBack_spec s with ⟨bus, pin, ho, hp, e⟩ | ⟨hr, e⟩
    · exact .inr (.inr (.inr (.inl ⟨bus, pin, rfl, ho, hp, h.symm.trans e⟩)))
    · exact .inr (.inr (.inr (.inr ⟨.inl ⟨.inr rfl, hr⟩, h.symm.trans e⟩)))

/-- What a step can do: the offer is nothing, a request, or out of set. -/
theorem step_cases (s t : State) (h : step s = .next t) :
    (s.offer = .nothing ∧ t = s.take.advance) ∨
    (∃ i, s.offer = .request i ∧ exec i s.take = .next t) ∨
    (s.offer = .outOfSet ∧ t = { s.take with refused := true }) := by
  unfold step at h
  cases ho : s.offer with
  | nothing =>
    rw [ho] at h
    injection h with h
    exact .inl ⟨rfl, h.symm⟩
  | request i =>
    rw [ho] at h
    exact .inr (.inl ⟨i, rfl, h⟩)
  | outOfSet =>
    rw [ho] at h
    injection h with h
    exact .inr (.inr ⟨rfl, h.symm⟩)

/-- Everything a step can do, in the terms of the shared operations: it waits, takes the step of its phase,
accepts, answers, constructs, gives back, or refuses. -/
theorem step_inversion (s t : State) (h : step s = .next t) :
    (s.offer = .nothing ∧ s.waits ∧ t = s.take) ∨
    (s.offer = .nothing ∧ s.own.isOwned = true ∧ s.phase = .assert ∧ t = s.take.assertStep) ∨
    (∃ r, s.offer = .nothing ∧ s.own.isOwned = true ∧ s.phase = .write ∧ s.busDraw = .returns r ∧
      t = { s.take.busWrite s.frameReg r with phase := .deassert }) ∨
    (s.offer = .nothing ∧ s.own.isOwned = true ∧ s.phase = .deassert ∧ t = s.take.deassertStep) ∨
    (∃ i op f, s.offer = .request i ∧ i.command? = some (op, f) ∧ s.own.isOwned = true ∧
      s.phase = .idle ∧ t = s.take.latchCommand op f) ∨
    (∃ i k a v, s.offer = .request i ∧ i.encodeOperands? = some (k, a, v) ∧
      t = s.take.answerFrame (encodeFrame k a v)) ∨
    (∃ bus pin, s.offer = .request (.init bus pin) ∧ s.own.isOwned = false ∧
      t = s.take.construct bus pin) ∨
    (∃ bus pin, s.offer = .request .release ∧ s.own = .owned bus pin ∧ s.phase = .idle ∧
      t = ({ s.take with own := .released } : State).respond .release (.caps bus pin)) ∨
    (((∃ i, s.offer = .request i ∧ refusedIn i s.own s.phase) ∨ s.offer = .outOfSet) ∧
      t = { s.take with refused := true }) := by
  rcases step_cases s t h with ⟨h1, h2⟩ | ⟨i, h1, h2⟩ | ⟨h1, h2⟩
  · rcases advance_spec s.take with ⟨hw, e⟩ | ⟨a, b, e⟩ | ⟨r, a, b, c, e⟩ | ⟨a, b, e⟩
    · exact .inl ⟨h1, hw, h2.trans e⟩
    · exact .inr (.inl ⟨h1, a, b, h2.trans e⟩)
    · exact .inr (.inr (.inl ⟨r, h1, a, b, c, h2.trans e⟩))
    · exact .inr (.inr (.inr (.inl ⟨h1, a, b, h2.trans e⟩)))
  · refine .inr (.inr (.inr (.inr ?_)))
    rcases exec_cases i _ t h2 with ⟨op, f, a, b, c, e⟩ | ⟨k, a, v, b, e⟩ | ⟨b, p, rfl, c, e⟩ |
      ⟨b, p, rfl, c, d, e⟩ | ⟨a, e⟩
    · exact .inl ⟨i, op, f, h1, a, b, c, e⟩
    · exact .inr (.inl ⟨i, k, a, v, h1, b, e⟩)
    · exact .inr (.inr (.inl ⟨b, p, h1, c, e⟩))
    · exact .inr (.inr (.inr (.inl ⟨b, p, h1, c, d, e⟩)))
    · exact .inr (.inr (.inr (.inr ⟨.inl ⟨i, h1, a⟩, e⟩)))
  · exact .inr (.inr (.inr (.inr (.inr (.inr (.inr (.inr ⟨.inr h1, h2⟩)))))))

end Sys2Proof.Machine
end

