-- ==== Sys2Proof/Laws/Text.lean ====
section
/-! SUPPORT. The textual form, once: literals and names read back, and a line splits where it was joined. -/

namespace Sys2Proof

@[simp] theorem hexNibble?_hexDigit : ∀ n : BitVec 4, hexNibble? (hexDigit n) = some n := by decide

theorem hexDigit_ne_comma : ∀ n : BitVec 4, hexDigit n ≠ ',' := by decide

@[simp] theorem kind_ofText?_text (k : CommandKind) : CommandKind.ofText? k.text = some k := by
  cases k <;> decide

@[simp] theorem channel_ofText?_text (a : Channel) : Channel.ofText? a.text = some a := by
  cases a <;> decide

/-- The four nibbles of a value, put together again. -/
theorem value_nibbles (v : Value) :
    v.extractLsb' 12 4 ++ v.extractLsb' 8 4 ++ v.extractLsb' 4 4 ++ v.extractLsb' 0 4 = v := by
  apply BitVec.eq_of_getLsbD_eq
  intro i hi
  simp only [BitVec.getLsbD_append, BitVec.getLsbD_extractLsb']
  split
  · simp [*]
  · split
    · next h2 => simp [h2, show 4 + (i - 4) = i by omega]
    · split
      · next h3 => simp [h3, show 8 + (i - 4 - 4) = i by omega]
      · simp [show 12 + (i - 4 - 4 - 4) = i by omega, show i - 4 - 4 - 4 < 4 by omega]

@[simp] theorem valueOfText?_valueText (v : Value) : valueOfText? (valueText v) = some v := by
  simp [valueOfText?, valueText, value_nibbles]

/-- No name of a channel holds a comma. -/
theorem channel_text_no_comma (a : Channel) : a.text.all (fun c => c != ',') = true := by
  cases a <;> decide

/-- No name of a command kind holds a comma. -/
theorem kind_text_no_comma (k : CommandKind) : k.text.all (fun c => c != ',') = true := by
  cases k <;> decide

/-- No literal holds a comma. -/
theorem valueText_no_comma (v : Value) : (valueText v).all (fun c => c != ',') = true := by
  simp [valueText, hexDigit_ne_comma]

/-- No mnemonic holds a space. -/
theorem mnemonic_no_space (i : Instr) : i.mnemonic.all (fun c => c != ' ') = true := by
  cases i <;> rfl

/-- A text without a comma is one operand. -/
theorem splitOperands_single (w : List Char) (h : w.all (fun c => c != ',') = true) :
    splitOperands w = [w] := by
  induction w with
  | nil => rfl
  | cons c w ih =>
    simp only [List.all_cons, Bool.and_eq_true, bne_iff_ne] at h
    rw [splitOperands, ih h.2]
    intro r h1 _
    exact h.1 h1

/-- An operand, a comma and a space split off. -/
theorem splitOperands_cons (w r : List Char) (h : w.all (fun c => c != ',') = true) :
    splitOperands (w ++ ',' :: ' ' :: r) = w :: splitOperands r := by
  induction w with
  | nil => rfl
  | cons c w ih =>
    simp only [List.all_cons, Bool.and_eq_true, bne_iff_ne] at h
    rw [List.cons_append, splitOperands, ih h.2]
    intro r h1 _
    exact h.1 h1

/-- A mnemonic and a space split off. -/
theorem splitFirst_space (w r : List Char) (h : w.all (fun c => c != ' ') = true) :
    splitFirst ' ' (w ++ ' ' :: r) = (w, some r) := by
  induction w with
  | nil => rfl
  | cons c w ih =>
    simp only [List.all_cons, Bool.and_eq_true, bne_iff_ne] at h
    rw [List.cons_append, splitFirst, if_neg h.1, ih h.2]

/-- A line with operands is its mnemonic and its operands. -/
theorem parseLine_words (bus : BusCap) (pin : PinCap) (m r : List Char)
    (h : m.all (fun c => c != ' ') = true) :
    parseLine bus pin (m ++ ' ' :: r) = parseWords bus pin m (splitOperands r) := by
  simp [parseLine, splitFirst_space m r h]

end Sys2Proof
end

