-- ==== Sys2Proof/Tests/Slice0.lean ====
section
/-! SUPPORT. Tests. Expected results are the spec's: the words of opcode_table.json, the vectors of
95_test_vectors.md (named by their numbers S, F, V) and the examples of the rules cited. Then, for every
obligation with hypotheses, a concrete state that meets them. -/

namespace Sys2Proof.Tests

open Sys2Proof.Machine

/-- `E` of 95_test_vectors.md, some bus error. Its type is open, so results that hold it are compared by
`rfl`: it is the same error, whichever it is. -/
abbrev busErr : BusErr := Config.busError 0

/-- `p` of 95_test_vectors.md, some pin error. -/
abbrev pinErr : PinErr := Config.pinError 0

/-- The next state of an outcome. -/
def nextOf? (o : Host.Outcome State Fault Refusal) : Option State :=
  match o with
  | .next s => some s
  | .fault _ => none
  | .refused _ => none

/-- An owned, Idle block with the line high and nothing scripted. -/
def owned : State :=
  { State.reset with own := .owned ⟨1⟩ ⟨2⟩, cs := .high }

/-- An owned block in a phase of the operation `reset()`. -/
def during (p : Phase) : State :=
  { owned with phase := p, opReg := .reset, frameReg := resetFrame, cs := p.level }

/-- The state with scripted answers of the line and the transport. -/
def script (s : State) (pins : List PinResult) (levels : List Level) (buses : List BusAnswer) : State :=
  { s with pinAnswers := pins, levelAnswers := levels, busAnswers := buses }

/-- The state with requests at the port. -/
def offering (s : State) (a : List Arrival) : State :=
  { s with arrivals := a }

/-! ### Well-formedness and decoding -/

theorem test_wellFormed_refuses_encodeReset_zero :
    (Instr.encodeReset .dacA 0x0000#16).wellFormed = false := by decide

theorem test_wellFormed_refuses_encodeInternalRef_zero :
    (Instr.encodeInternalRef .dacA 0x0000#16).wellFormed = false := by decide

/-- Words written out from opcode_table.json: opcode byte, address nibble, value, zero nibble. -/
theorem test_decode_write_input_register :
    decodeTableWord 32 0b00000000000011111111111111110000 =
      some (.writeInputRegister .dacA 0xFFFF#16) := by decide

theorem test_decode_update_dac_register :
    decodeTableWord 32 0b00000001001010101011110011010000 =
      some (.updateDacRegister .dacC 0xABCD#16) := by decide

theorem test_decode_write_input_update_all :
    decodeTableWord 32 0b00000010000100000000000011110000 =
      some (.writeInputUpdateAll .dacB 0x000F#16) := by decide

theorem test_decode_write_and_update_channel :
    decodeTableWord 32 0b00000011010001011010010110100000 =
      some (.writeAndUpdateChannel .dacE 0x5A5A#16) := by decide

theorem test_decode_encode_PowerControl :
    decodeTableWord 32 0b00000100111100000000000000000000 =
      some (.encodePowerControl .allDacs 0x0000#16) := by decide

theorem test_decode_encode_LoadClearCode :
    decodeTableWord 32 0b00000101000001111111111111110000 =
      some (.encodeLoadClearCode .dacA 0x7FFF#16) := by decide

theorem test_decode_encode_LoadLdac :
    decodeTableWord 32 0b00000110001100000000111111110000 =
      some (.encodeLoadLdac .dacD 0x00FF#16) := by decide

theorem test_decode_reset :
    decodeTableWord 32 0b00000111000000000000000000000000 = some .reset := by decide

theorem test_decode_encode_Reset :
    decodeTableWord 32 0b00000111111100010010001101000000 =
      some (.encodeReset .allDacs 0x1234#16) := by decide

theorem test_decode_enable_internal_reference :
    decodeTableWord 32 0b00001000000000000000000000000001 = some .enableInternalReference := by decide

theorem test_decode_disable_internal_reference :
    decodeTableWord 32 0b00001000000000000000000000000000 = some .disableInternalReference := by decide

theorem test_decode_encode_InternalRef :
    decodeTableWord 32 0b00001000000000000000000000010000 =
      some (.encodeInternalRef .dacA 0x0001#16) := by decide

/-- `init`, `release` and the generic `encode` have no bits in the table. -/
theorem test_rows_without_bits :
    encode (.init ⟨1⟩ ⟨2⟩) = none ∧ encode .release = none ∧
      encode (.encode .writeInput .dacA 0#16) = none := by decide

/-- 95_test_vectors.md 2.2: not a frame the block emits, each for its own reason. -/
theorem test_decode_rejects :
    decode [0x09#8, 0x00#8, 0x00#8, 0x00#8] = .error (.opcode 9#4) ∧
    decode [0x00#8, 0x80#8, 0x00#8, 0x00#8] = .error (.address 8#4) ∧
    decode [0x00#8, 0x00#8, 0x00#8, 0x01#8] = .error .lowNibble ∧
    decode [0x30#8, 0x00#8, 0x00#8, 0x00#8] = .error .highNibble ∧
    decode [0x00#8] = .error .length := by
  refine ⟨rfl, rfl, rfl, rfl, rfl⟩

/-- The codes on both sides of each boundary of 30_encoding.md R79, R80: channel 7 and 15 and opcode 8 are
read, channel 14 and opcode 15 are not. -/
theorem test_decode_boundaries :
    decode [0x00#8, 0x70#8, 0x00#8, 0x00#8] = .ok (.writeInputRegister .dacH 0#16) ∧
    decode [0x00#8, 0xE0#8, 0x00#8, 0x00#8] = .error (.address 14#4) ∧
    decode [0x00#8, 0xF0#8, 0x00#8, 0x00#8] = .ok (.writeInputRegister .allDacs 0#16) ∧
    decode [0x08#8, 0xF0#8, 0x00#8, 0x00#8] = .ok (.encodeInternalRef .allDacs 0#16) ∧
    decode [0x0F#8, 0x00#8, 0x00#8, 0x00#8] = .error (.opcode 15#4) := by
  refine ⟨rfl, rfl, rfl, rfl, rfl⟩

/-- 41_framer.md R148: opcode 3 is sent on the bus, opcodes 4 and 7 with fields are not, the control frames
are. -/
theorem test_busFrame_boundaries :
    busFrame ⟨0x03#8, 0xFF#8, 0xFF#8, 0xF0#8⟩ = true ∧ busFrame ⟨0x04#8, 0x00#8, 0x00#8, 0x00#8⟩ = false ∧
    busFrame ⟨0x07#8, 0xF1#8, 0x23#8, 0x40#8⟩ = false ∧ busFrame resetFrame = true ∧
    busFrame enableRefFrame = true ∧ busFrame disableRefFrame = true := by decide

/-- 20_memory.md R56: none and all four bytes may be delivered on an error, other bytes may not. -/
theorem test_mayDeliver :
    mayDeliver resetFrame (.err busErr) [] = true ∧
    mayDeliver resetFrame (.err busErr) [0x07#8, 0x00#8, 0x00#8, 0x00#8] = true ∧
    mayDeliver resetFrame (.err busErr) [0x08#8] = false ∧ mayDeliver resetFrame .ok [] = false := by decide

/-- 95_test_vectors.md 2.1: each nibble boundary of the value. -/
theorem test_encode_value_walk :
    (encodeFrame .writeInput .dacA 0x0001#16).word = 0x00000010#32 ∧
    (encodeFrame .writeInput .dacA 0x0010#16).word = 0x00000100#32 ∧
    (encodeFrame .writeInput .dacA 0x0100#16).word = 0x00001000#32 ∧
    (encodeFrame .writeInput .dacA 0x1000#16).word = 0x00010000#32 ∧
    (encodeFrame .writeInput .dacA 0x1234#16).word = 0x00012340#32 := by decide

/-- 95_test_vectors.md 2.1: address and opcode cases. -/
theorem test_encode_address_and_opcode :
    (encodeFrame .writeInput .dacF 0x0800#16).word = 0x00508000#32 ∧
    (encodeFrame .writeInput .dacG 0xC3C3#16).word = 0x006C3C30#32 ∧
    (encodeFrame .writeUpdateChannel .allDacs 0xFFFF#16).word = 0x03FFFFF0#32 ∧
    (encodeFrame .writeUpdateChannel .dacH 0x8001#16).word = 0x03780010#32 := by decide

/-- 95_test_vectors.md 2.2: both readings of the reset frame. -/
theorem test_classify_both_readings :
    classify ⟨0x07#8, 0x00#8, 0x00#8, 0x00#8⟩ =
      [.control .reset, .generic .reset .dacA 0x0000#16] := by decide

/-- 95_test_vectors.md 2.2: the enable frame has one reading; `[0x30, 0, 0, 0]` has none. -/
theorem test_classify_enable_and_none :
    classify ⟨0x08#8, 0x00#8, 0x00#8, 0x01#8⟩ = [.control .enableInternalReference] ∧
    classify ⟨0x30#8, 0x00#8, 0x00#8, 0x00#8⟩ = [] := by decide

/-- The example lines of 30_encoding.md R88. -/
theorem test_parse_examples :
    parseLine ⟨1⟩ ⟨2⟩ "write_input_register DacA, 0xFFFF".toList =
      some (.writeInputRegister .dacA 0xFFFF#16) ∧
    parseLine ⟨1⟩ ⟨2⟩ "encode WriteUpdateChannel, DacA, 0x0000".toList =
      some (.encode .writeUpdateChannel .dacA 0x0000#16) ∧
    parseLine ⟨1⟩ ⟨2⟩ "init bus, pin".toList = some (.init ⟨1⟩ ⟨2⟩) ∧
    parseLine ⟨1⟩ ⟨2⟩ "reset".toList = some .reset := ⟨rfl, rfl, rfl, rfl⟩

/-- 30_encoding.md R88: one request per line. -/
theorem test_parse_program :
    parseProgram ⟨1⟩ ⟨2⟩ "init bus, pin\nrelease".toList = some [.init ⟨1⟩ ⟨2⟩, .release] := rfl

/-- The default wire order starts with `b0[7]`: the enable frame's fifth bit is its opcode's first one. -/
theorem test_wire_default :
    (wireBits defaultWireOrder enableRefFrame).take 6 = [false, false, false, false, true, false] := by
  decide

/-! ### One step -/

/-- V1: INIT with the pin returning Ok. -/
theorem test_init_ok :
    (nextOf? (exec (.init ⟨1⟩ ⟨2⟩) (script State.reset [.ok] [] []))).map
        (fun t => (t.trace, t.own, t.cs)) =
      some ([.pin .high .ok, .resp .init .ok], .owned ⟨1⟩ ⟨2⟩, .high) := by decide

/-- V2: a pin error at INIT is in the trace and the response is Ok. -/
theorem test_init_pin_error :
    (nextOf? (exec (.init ⟨1⟩ ⟨2⟩) (script State.reset [.err pinErr] [.low] []))).map
        (fun t => (t.trace, t.resp, t.cs)) =
      some ([.pin .high (.err pinErr), .resp .init .ok], some (.framer .init .ok), .low) := rfl

/-- V3: INIT while owned is refused, with no event. -/
theorem test_init_while_owned :
    (nextOf? (exec (.init ⟨3⟩ ⟨4⟩) owned)).map (fun t => (t.refused, t.trace, t.own)) =
      some (true, [], .owned ⟨1⟩ ⟨2⟩) := by decide

/-- V4: RELEASE gives back the capabilities, and the line keeps its level. -/
theorem test_release :
    (nextOf? (exec .release owned)).map (fun t => (t.trace, t.own, t.cs)) =
      some ([.resp .release (.caps ⟨1⟩ ⟨2⟩)], .released, .high) := by decide

/-- V6, V8: requests without ownership are refused. -/
theorem test_refused_unowned :
    (nextOf? (exec .release State.reset)).map (fun t => (t.refused, t.trace)) = some (true, []) ∧
    (nextOf? (exec (.writeInputRegister .dacA 0#16) State.reset)).map (fun t => (t.refused, t.trace)) =
      some (true, []) := by decide

/-- V9: a reentrant request is refused and the pending operation is unaffected. -/
theorem test_reentrant :
    nextOf? (exec .reset (during .write)) = some { during .write with refused := true } := rfl

/-- V10: ENCODE in any state, here during a bus write. -/
theorem test_encode_LoadLdac_answer :
    (nextOf? (exec (.encodeLoadLdac .dacD 0x00FF#16) (during .write))).map (fun t => (t.resp, t.trace)) =
      some (some (.frame ⟨0x06#8, 0x30#8, 0x0F#8, 0xF0#8⟩), []) := by decide

/-- V11: an operand outside its set is refused. -/
theorem test_out_of_set :
    (nextOf? (step (offering owned [.bytes [0x00#8, 0x80#8, 0x00#8, 0x00#8]]))).map
        (fun t => (t.refused, t.trace, t.resp)) = some (true, [], none) := by decide

/-- P5: the generic ENCODE request before construction. -/
theorem test_encode_generic_answer :
    (nextOf? (exec (.encode .writeUpdateChannel .dacE 0x5A5A#16) State.reset)).map (fun t => t.resp) =
      some (some (.frame ⟨0x03#8, 0x45#8, 0xA5#8, 0xA0#8⟩)) := by decide

theorem test_encode_PowerControl_answer :
    (nextOf? (exec (.encodePowerControl .allDacs 0x0000#16) owned)).map (fun t => t.resp) =
      some (some (.frame ⟨0x04#8, 0xF0#8, 0x00#8, 0x00#8⟩)) := by decide

theorem test_encode_LoadClearCode_answer :
    (nextOf? (exec (.encodeLoadClearCode .allDacs 0xFFFF#16) owned)).map (fun t => t.resp) =
      some (some (.frame ⟨0x05#8, 0xFF#8, 0xFF#8, 0xF0#8⟩)) := by decide

theorem test_encode_Reset_answer :
    (nextOf? (exec (.encodeReset .allDacs 0x1234#16) owned)).map (fun t => t.resp) =
      some (some (.frame ⟨0x07#8, 0xF1#8, 0x23#8, 0x40#8⟩)) := by decide

theorem test_encode_InternalRef_answer :
    (nextOf? (exec (.encodeInternalRef .dacA 0x0001#16) owned)).map (fun t => t.resp) =
      some (some (.frame ⟨0x08#8, 0x00#8, 0x00#8, 0x10#8⟩)) := by decide

/-- The frames of 95_test_vectors.md 2.3, as latched. -/
theorem test_latched_data_frames :
    (nextOf? (exec (.writeInputRegister .dacA 0xFFFF#16) owned)).map (fun t => (t.frameReg, t.phase)) =
      some (⟨0x00#8, 0x0F#8, 0xFF#8, 0xF0#8⟩, .assert) ∧
    (nextOf? (exec (.updateDacRegister .allDacs 0x0000#16) owned)).map (fun t => t.frameReg) =
      some ⟨0x01#8, 0xF0#8, 0x00#8, 0x00#8⟩ ∧
    (nextOf? (exec (.writeInputUpdateAll .dacB 0x4000#16) owned)).map (fun t => t.frameReg) =
      some ⟨0x02#8, 0x14#8, 0x00#8, 0x00#8⟩ ∧
    (nextOf? (exec (.writeAndUpdateChannel .dacA 0x0000#16) owned)).map (fun t => t.frameReg) =
      some ⟨0x03#8, 0x00#8, 0x00#8, 0x00#8⟩ := by decide

theorem test_latched_control_frames :
    (nextOf? (exec .enableInternalReference owned)).map (fun t => t.frameReg) =
      some ⟨0x08#8, 0x00#8, 0x00#8, 0x01#8⟩ ∧
    (nextOf? (exec .disableInternalReference owned)).map (fun t => t.frameReg) =
      some ⟨0x08#8, 0x00#8, 0x00#8, 0x00#8⟩ ∧
    (nextOf? (exec .reset owned)).map (fun t => t.frameReg) =
      some ⟨0x07#8, 0x00#8, 0x00#8, 0x00#8⟩ := by decide

/-- F3, first step: a failed set-low does not stop the write. -/
theorem test_assert_step_pin_error :
    (nextOf? (step (script (during .assert) [.err pinErr] [.high] []))).map
        (fun t => (t.phase, t.trace, t.cs)) =
      some (.write, [.pin .low (.err pinErr)], .high) := rfl

/-- F2, second step: the bus error is latched. -/
theorem test_write_step_error :
    (nextOf? (step (script (during .write) [] [] [.returns (.err busErr)]))).map
        (fun t => (t.phase, t.trace, t.wres)) =
      some (.deassert, [.bus ⟨0x07#8, 0x00#8, 0x00#8, 0x00#8⟩ (.err busErr)], .err busErr) := rfl

/-- F9: a bus call that never returns. -/
theorem test_write_step_hangs :
    (nextOf? (step (script (during .write) [] [] [.never]))).map
        (fun t => (t.phase, t.trace, t.cs, t.resp)) = some (.write, [], .low, none) := by decide

/-- F6, last step: the response is the bus error, whatever the set-high returned. -/
theorem test_deassert_step_errors :
    (nextOf? (step (script { during .deassert with wres := .err busErr } [.err pinErr] [.low] []))).map
        (fun t => (t.phase, t.trace, t.resp, t.cs)) =
      some (.idle, [.pin .high (.err pinErr), .resp (.command .reset) (.err busErr)],
        some (.framer (.command .reset) (.err busErr)), .low) := rfl

/-- The next step runs the table word it is given, from reset. -/
theorem test_withFetchWord_runs :
    (nextOf? (step (State.reset.withFetchWord 32 0x04F00000))).map (fun t => t.resp) =
      some (some (.frame ⟨0x04#8, 0xF0#8, 0x00#8, 0x00#8⟩)) := by decide

/-! ### Witnesses: each obligation's hypotheses are met -/

/-- A state in which the operation `reset()` is accepted and runs to its end. -/
def accepted : State :=
  script (offering owned [.term .reset]) [.ok, .err pinErr] [.low] [.returns .ok]

theorem witness_EncodeFrameInjective :
    encodeFrame .writeInput .dacA 0#16 = encodeFrame .writeInput .dacA 0#16 := rfl

theorem witness_DecodeEncodeRoundTrip :
    (Instr.encodeReset .dacA 0x0001#16).wellFormed = true ∧
    encode (.encodeReset .dacA 0x0001#16) = some [0x07#8, 0x00#8, 0x00#8, 0x10#8] := by decide

theorem witness_EncodeDecodeRoundTrip :
    decode [0x07#8, 0x00#8, 0x00#8, 0x10#8] = .ok (.encodeReset .dacA 0x0001#16) := rfl

theorem witness_DecoderRefusesExactlyReserved : ([] : List Byte).length ≠ 4 := by decide

theorem witness_TextRoundTrip :
    ∀ b p, Instr.init ⟨1⟩ ⟨2⟩ = .init b p → b = ⟨1⟩ ∧ p = ⟨2⟩ := by
  intro b p h
  injection h with h1 h2
  exact ⟨h1.symm, h2.symm⟩

theorem witness_InitConstructs_ok :
    State.reset.own.isOwned = false ∧ (script State.reset [.ok] [] []).pinDraw = .ok := by decide

theorem witness_InitConstructs_err :
    (script State.reset [.err pinErr] [.low] []).own.isOwned = false ∧
    (script State.reset [.err pinErr] [.low] []).pinDraw = .err pinErr := ⟨rfl, rfl⟩

/-- The hypotheses of DataRequestsSendTheirFrame and ControlRequestsSendTheirFrame, with those of
`State.completes` in the state the acceptance leaves. -/
theorem witness_RequestsSendTheirFrame :
    accepted.own.isOwned = true ∧ accepted.phase = .idle ∧
    (accepted.take.latchCommand .reset resetFrame).quietFor 3 = true ∧
    (accepted.take.latchCommand .reset resetFrame).take.assertStep.busDraw = .returns .ok := by decide

theorem witness_ReleaseReturnsCapabilities : owned.own = .owned ⟨1⟩ ⟨2⟩ ∧ owned.phase = .idle := by decide

theorem witness_InitThenRelease :
    (offering State.reset [.term (.init ⟨1⟩ ⟨2⟩), .term .release]).own.isOwned = false ∧
    (offering State.reset [.term (.init ⟨1⟩ ⟨2⟩), .term .release]).arrivals =
      .term (.init ⟨1⟩ ⟨2⟩) :: .term .release :: [] := ⟨rfl, rfl⟩

theorem witness_RefusalOnlySetsTheMark_refused :
    refusedIn .reset State.reset.own State.reset.phase := .inl ⟨.inl rfl, .inl rfl⟩

theorem witness_RefusalOnlySetsTheMark_not_refused : ¬ refusedIn .reset owned.own owned.phase := by
  rintro (⟨-, h | h⟩ | ⟨⟨_, _, h⟩, -⟩)
  · exact absurd h (by decide)
  · exact h rfl
  · exact Instr.noConfusion h

theorem witness_RefusalTable : Phase.assert ≠ .idle := by decide

theorem witness_AssertStepIsUnchecked :
    (script (during .assert) [.err pinErr] [.high] []).own.isOwned = true ∧
    (script (during .assert) [.err pinErr] [.high] []).phase = .assert ∧
    (script (during .assert) [.err pinErr] [.high] []).offer = .nothing ∧
    (script (during .assert) [.err pinErr] [.high] []).pinDraw = .err pinErr ∧
    (script (during .assert) [.ok] [] []).pinDraw = .ok := ⟨rfl, rfl, rfl, rfl, rfl⟩

theorem witness_WriteStepMakesOneBusCall :
    (script (during .write) [] [] [.returns .ok]).own.isOwned = true ∧
    (script (during .write) [] [] [.returns .ok]).phase = .write ∧
    (script (during .write) [] [] [.returns .ok]).offer = .nothing ∧
    (script (during .write) [] [] [.returns .ok]).busDraw = .returns .ok := by decide

theorem witness_DeassertStepResponds :
    (during .deassert).own.isOwned = true ∧ (during .deassert).phase = .deassert ∧
    (during .deassert).offer = .nothing ∧ (during .deassert).wres = .ok ∧
    ({ during .deassert with wres := .err busErr } : State).wres = .err busErr ∧
    (script (during .deassert) [.ok] [] []).pinDraw = .ok ∧
    (script (during .deassert) [.err pinErr] [] []).pinDraw = .err pinErr := ⟨rfl, rfl, rfl, rfl, rfl, rfl, rfl⟩

theorem witness_HangPersists :
    (script (during .write) [] [] [.never]).hung = true ∧
    (script (during .write) [] [] [.never]).noRequestPending = true := by decide

theorem witness_OperationEndsWhenBusReturns :
    (script (during .assert) [] [] [.returns .ok]).own.isOwned = true ∧
    (script (during .assert) [] [] [.returns .ok]).phase = .assert ∧
    (script (during .assert) [] [] [.returns .ok]).noRequestPending = true ∧
    (script (during .assert) [] [] [.returns .ok]).take.assertStep.busDraw = .returns .ok := by decide

/-- The hypotheses of PinErrorsNeverSurface and ErrorPathIsTheSuccessPath. -/
theorem witness_operation_runs :
    Instr.command? .reset = some (.reset, resetFrame) ∧ accepted.own.isOwned = true ∧
    accepted.phase = .idle ∧ accepted.offer = .request .reset ∧ accepted.take.quietFor 3 = true ∧
    accepted.busAnswers = [.returns .ok] ∧ ∃ u, stepsTo 4 accepted u :=
  ⟨rfl, rfl, rfl, rfl, rfl, rfl, _, _, rfl, _, rfl, _, rfl, _, rfl, rfl⟩

theorem witness_StepRunsTheOfferedRequest :
    (offering owned [.term .reset]).arrivals = [.term .reset] ∧
    (offering owned [.bytes resetFrame.bytes]).arrivals = [.bytes resetFrame.bytes] ∧
    decode resetFrame.bytes = .ok .reset ∧ decodeTableWord 32 0x07000000 = some .reset := ⟨rfl, rfl, rfl, rfl⟩

theorem witness_OutOfSetBytesAreRefused :
    (offering owned [.bytes [0x09#8, 0x00#8, 0x00#8, 0x00#8]]).arrivals =
      [.bytes [0x09#8, 0x00#8, 0x00#8, 0x00#8]] ∧
    decode [0x09#8, 0x00#8, 0x00#8, 0x00#8] = .error (.opcode 9#4) := ⟨rfl, rfl⟩

theorem witness_NothingHappensWithoutARequest :
    owned.offer = .nothing ∧ owned.phase = .idle ∧
    State.reset.offer = .nothing ∧ State.reset.own.isOwned = false := by decide

/-- The hypothesis `step s = next t` of StepRefinesTheRelation and MarkAndTraceOnlyGrow. -/
theorem witness_step_answers : ∃ t, step accepted = .next t ∧ t.phase = .assert := ⟨_, rfl, rfl⟩

theorem witness_RelationIsRealised :
    BlockStep .outOfSet owned.block { owned.block with refused := true, resp := none } :=
  .refuseOutOfSet _

theorem witness_StepKeepsLineInvariant :
    (during .assert).lineInv ∧ ∃ t, step (during .assert) = .next t := ⟨fun _ => rfl, _, rfl⟩

theorem witness_LineInvariantMeans :
    (during .write).lineInv ∧ (during .write).own.isOwned = true ∧ (during .write).allPinsOk = true ∧
    owned.lineInv ∧ owned.phase = .idle ∧ (during .deassert).lineInv :=
  ⟨fun _ => rfl, rfl, rfl, fun _ => rfl, rfl, fun _ => rfl⟩

theorem witness_StepKeepsLineFollowsPin :
    State.lineFollowsPin { owned with trace := [.pin .high .ok] } ∧
    ∃ t, step { owned with trace := [.pin .high .ok] } = .next t :=
  ⟨fun _ h => congrArg Prod.fst (Option.some.inj h), _, rfl⟩

theorem witness_StepKeepsTraceGrammar :
    State.traceInv { during .assert with trace := [.pin .high .ok, .resp .init .ok] } ∧
    ∃ t, step { during .assert with trace := [.pin .high .ok, .resp .init .ok] } = .next t :=
  ⟨⟨by decide, by decide⟩, _, rfl⟩

theorem witness_EveryBusCallIsBracketed :
    tracePoint ([.pin .high .ok, .resp .init .ok, .pin .low .ok] ++
      .bus resetFrame .ok :: [.pin .high .ok]) = some (.deselected resetFrame .ok) := by decide

theorem witness_StepKeepsOneBusCallPerResponse :
    State.busCountInv { during .deassert with trace := [.bus resetFrame .ok] } ∧
    ∃ t, step { during .deassert with trace := [.bus resetFrame .ok] } = .next t := ⟨rfl, _, rfl⟩

theorem witness_OwnershipChanges_init :
    ∃ t, step (offering State.reset [.term (.init ⟨1⟩ ⟨2⟩)]) = .next t ∧ t.own ≠ State.reset.own :=
  ⟨_, rfl, by decide⟩

theorem witness_OwnershipChanges_release :
    ∃ t, step (offering owned [.term .release]) = .next t ∧ t.own ≠ owned.own := ⟨_, rfl, by decide⟩

theorem witness_PhaseFollowsItsOrder :
    owned.own.isOwned = true ∧
    ∃ t, step (offering owned [.term .reset]) = .next t ∧ t.phase ≠ owned.phase := ⟨rfl, _, rfl, by decide⟩

end Sys2Proof.Tests
end

section
/-! PROOF of O42: every step keeps the trace in the grammar of operations (20_memory.md R61). First the
grammar's rules and the frames requests send, then what the invariant says in each phase, then one lemma for
each thing a step can do. -/

namespace Sys2Proof

/-- A request sends the frame it is accepted with (30_encoding.md R90). -/
theorem sends_of_command? (i : Instr) (op : PerCommand) (f : Frame) (h : i.command? = some (op, f)) :
    op.sends f = true := by
  cases i <;> simp only [Instr.command?, Option.some.injEq, Prod.mk.injEq, reduceCtorEq] at h <;>
    obtain ⟨rfl, rfl⟩ := h
  case writeInputRegister a v => exact (sends_data _ .writeInput rfl _).2 ⟨a, v, rfl⟩
  case updateDacRegister a v => exact (sends_data _ .updateDac rfl _).2 ⟨a, v, rfl⟩
  case writeInputUpdateAll a v => exact (sends_data _ .writeInputUpdateAll rfl _).2 ⟨a, v, rfl⟩
  case writeAndUpdateChannel a v => exact (sends_data _ .writeUpdateChannel rfl _).2 ⟨a, v, rfl⟩
  case enableInternalReference => decide
  case disableInternalReference => decide
  case reset => decide

theorem mem_perCommand_all (op : PerCommand) : op ∈ PerCommand.all := by
  cases op <;> decide

/-- A frame some request sends can appear in a `Bus` event (41_framer.md R148). -/
theorem busFrame_of_sends (op : PerCommand) (f : Frame) (h : op.sends f = true) : busFrame f = true :=
  List.any_eq_true.2 ⟨op, mem_perCommand_all op, h⟩

end Sys2Proof

namespace Sys2Proof.Machine

/-! ### The grammar, event by event -/

/-- Reading a trace in two parts: the later events are read from the point the earlier ones reach. -/
@[simp] theorem tracePoint_append (tr es : List Event) :
    tracePoint (tr ++ es) = (tracePoint tr).bind (fun p => es.foldlM TracePoint.next p) := by
  induction es generalizing tr with
  | nil => simp
  | cons e es ih =>
    have hone : tracePoint (tr ++ [e]) = (tracePoint tr).bind (fun p => p.next e) := by
      simp [tracePoint]
    rw [List.append_cons, ih, hone, Option.bind_assoc]
    simp only [List.foldlM_cons, Option.bind_eq_bind]

@[simp] theorem next_unowned_pin_high (r : PinResult) :
    TracePoint.unowned.next (.pin .high r) = some .constructing := rfl

@[simp] theorem next_constructing_resp_init :
    TracePoint.constructing.next (.resp .init .ok) = some .between := rfl

@[simp] theorem next_between_pin_low (r : PinResult) :
    TracePoint.between.next (.pin .low r) = some .selected := rfl

@[simp] theorem next_between_resp_release (bus : BusCap) (pin : PinCap) :
    TracePoint.between.next (.resp .release (.caps bus pin)) = some .unowned := rfl

theorem next_selected_bus (f : Frame) (r : BusResult) (h : busFrame f = true) :
    TracePoint.selected.next (.bus f r) = some (.written f r) :=
  if_pos h

@[simp] theorem next_written_pin_high (f : Frame) (r : BusResult) (pr : PinResult) :
    (TracePoint.written f r).next (.pin .high pr) = some (.deselected f r) := rfl

theorem next_deselected_resp (f : Frame) (r : BusResult) (op : PerCommand) (h : op.sends f = true) :
    (TracePoint.deselected f r).next (.resp (.command op) (responseOf r)) = some .between :=
  if_pos ⟨h, rfl⟩

/-! ### What the invariant says, by ownership and phase -/

theorem traceInv_not_owned (s : State) (ho : s.own.isOwned = false) :
    s.traceInv ↔ tracePoint s.trace = some .unowned := by
  cases h : s.own <;> simp [State.traceInv, h] at ho ⊢

theorem traceInv_idle (s : State) (ho : s.own.isOwned = true) (hp : s.phase = .idle) :
    s.traceInv ↔ tracePoint s.trace = some .between := by
  obtain ⟨bus, pin, h⟩ := (isOwned_iff _).1 ho
  simp [State.traceInv, h, hp]

theorem traceInv_assert (s : State) (ho : s.own.isOwned = true) (hp : s.phase = .assert) :
    s.traceInv ↔ tracePoint s.trace = some .between ∧ s.opReg.sends s.frameReg = true := by
  obtain ⟨bus, pin, h⟩ := (isOwned_iff _).1 ho
  simp [State.traceInv, h, hp]

theorem traceInv_write (s : State) (ho : s.own.isOwned = true) (hp : s.phase = .write) :
    s.traceInv ↔ tracePoint s.trace = some .selected ∧ s.opReg.sends s.frameReg = true := by
  obtain ⟨bus, pin, h⟩ := (isOwned_iff _).1 ho
  simp [State.traceInv, h, hp]

theorem traceInv_deassert (s : State) (ho : s.own.isOwned = true) (hp : s.phase = .deassert) :
    s.traceInv ↔
      tracePoint s.trace = some (.written s.frameReg s.wres) ∧ s.opReg.sends s.frameReg = true := by
  obtain ⟨bus, pin, h⟩ := (isOwned_iff _).1 ho
  simp [State.traceInv, h, hp]

/-! The invariant reads neither the ports nor the refused mark. -/

@[simp] theorem take_traceInv (s : State) : s.take.traceInv ↔ s.traceInv := Iff.rfl

@[simp] theorem answerFrame_traceInv (f : Frame) (s : State) :
    (s.answerFrame f).traceInv ↔ s.traceInv := Iff.rfl

theorem refused_traceInv (b : Bool) (s : State) :
    ({ s with refused := b } : State).traceInv ↔ s.traceInv := Iff.rfl

/-! ### What each act of a step does to the invariant -/

/-- INIT adds a whole construction (41_framer.md R130). -/
theorem traceInv_construct (bus : BusCap) (pin : PinCap) (s : State) (ho : s.own.isOwned = false)
    (hs : s.traceInv) : (s.construct bus pin).traceInv := by
  have htr := (traceInv_not_owned s ho).1 hs
  refine (traceInv_idle _ rfl rfl).2 ?_
  simp [State.construct, htr]

/-- RELEASE adds its response (41_framer.md R145). -/
theorem traceInv_release (bus : BusCap) (pin : PinCap) (s : State) (ho : s.own = .owned bus pin)
    (hp : s.phase = .idle) (hs : s.traceInv) :
    (({ s with own := .released } : State).respond .release (.caps bus pin)).traceInv := by
  have htr := (traceInv_idle s (by simp [ho]) hp).1 hs
  refine (traceInv_not_owned _ rfl).2 ?_
  simp [htr]

/-- Acceptance adds no event and latches a frame the request sends (41_framer.md R131). -/
theorem traceInv_latchCommand (op : PerCommand) (f : Frame) (s : State) (ho : s.own.isOwned = true)
    (hp : s.phase = .idle) (hf : op.sends f = true) (hs : s.traceInv) :
    (s.latchCommand op f).traceInv :=
  (traceInv_assert (s.latchCommand op f) ho rfl).2 ⟨(traceInv_idle s ho hp).1 hs, hf⟩

/-- The Assert step adds the set-low (41_framer.md R133). -/
theorem traceInv_assertStep (s : State) (ho : s.own.isOwned = true) (hp : s.phase = .assert)
    (hs : s.traceInv) : s.assertStep.traceInv := by
  obtain ⟨htr, hf⟩ := (traceInv_assert s ho hp).1 hs
  refine (traceInv_write s.assertStep ho rfl).2 ⟨?_, hf⟩
  simp [State.assertStep, htr]

/-- The Write step adds the bus call with the latched frame, and latches its result
(41_framer.md R133). -/
theorem traceInv_busWrite (r : BusResult) (s : State) (ho : s.own.isOwned = true)
    (hp : s.phase = .write) (hs : s.traceInv) :
    ({ s.busWrite s.frameReg r with phase := .deassert } : State).traceInv := by
  obtain ⟨htr, hf⟩ := (traceInv_write s ho hp).1 hs
  have hnext := next_selected_bus s.frameReg r (busFrame_of_sends _ _ hf)
  refine (traceInv_deassert { s.busWrite s.frameReg r with phase := .deassert } ho rfl).2 ⟨?_, hf⟩
  simp [htr, hnext]

/-- The Deassert step adds the set-high and the response with the latched result
(41_framer.md R133, R136). -/
theorem traceInv_deassertStep (s : State) (ho : s.own.isOwned = true) (hp : s.phase = .deassert)
    (hs : s.traceInv) : s.deassertStep.traceInv := by
  obtain ⟨htr, hf⟩ := (traceInv_deassert s ho hp).1 hs
  have hnext := next_deselected_resp s.frameReg s.wres s.opReg hf
  refine (traceInv_idle s.deassertStep ho rfl).2 ?_
  simp [State.deassertStep, htr, hnext]

/-- Settles O42, by the cases of a step. -/
theorem stepKeepsTraceGrammar : Obligations.StepKeepsTraceGrammar := by
  intro s t hs h
  have hs' : s.take.traceInv := (take_traceInv s).2 hs
  rcases step_inversion s t h with ⟨-, -, rfl⟩ | ⟨-, ho, hp, rfl⟩ | ⟨r, -, ho, hp, -, rfl⟩ |
    ⟨-, ho, hp, rfl⟩ | ⟨i, op, f, -, hc, ho, hp, rfl⟩ | ⟨i, k, a, v, -, -, rfl⟩ |
    ⟨bus, pin, -, ho, rfl⟩ | ⟨bus, pin, -, ho, hp, rfl⟩ | ⟨-, rfl⟩
  · exact hs'
  · exact traceInv_assertStep s.take ho hp hs'
  · exact traceInv_busWrite r s.take ho hp hs'
  · exact traceInv_deassertStep s.take ho hp hs'
  · exact traceInv_latchCommand op f s.take ho hp (sends_of_command? i op f hc) hs'
  · exact (answerFrame_traceInv _ _).2 hs'
  · exact traceInv_construct bus pin s.take ho hs'
  · exact traceInv_release bus pin s.take ho hp hs'
  · exact (refused_traceInv _ _).2 hs'

end Sys2Proof.Machine
end

section
/-! PROOF of O1: the bytes of a format G frame as nibbles and as numbers (30_encoding.md R73 to R76). -/

namespace Sys2Proof

/-- Byte 0 is the opcode under a zero high nibble (30_encoding.md R73). -/
theorem encodeFrame_b0_nibbles (k : CommandKind) (a : Channel) (v : Value) :
    hiNibble (encodeFrame k a v).b0 = 0#4 ∧ loNibble (encodeFrame k a v).b0 = k.opc :=
  ⟨hiNibble_zeroExtend k.opc, loNibble_zeroExtend k.opc⟩

/-- Byte 1 has the address code above the value's top four bits (30_encoding.md R74). -/
theorem encodeFrame_b1_toNat (k : CommandKind) (a : Channel) (v : Value) :
    (encodeFrame k a v).b1.toNat = a.code.toNat * 16 + v.toNat / 4096 := by
  have htop : (v.extractLsb' 12 4).toNat = v.toNat / 4096 := by
    have hv : v.toNat < 65536 := v.isLt
    rw [BitVec.extractLsb'_toNat, Nat.shiftRight_eq_div_pow]
    omega
  exact (toNat_append_eq a.code (v.extractLsb' 12 4)).trans (congrArg _ htop)

/-- Byte 2 is the value's middle eight bits (30_encoding.md R75). -/
theorem encodeFrame_b2_toNat (k : CommandKind) (a : Channel) (v : Value) :
    (encodeFrame k a v).b2.toNat = v.toNat / 16 % 256 := by
  simp [encodeFrame, BitVec.extractLsb'_toNat, Nat.shiftRight_eq_div_pow]

/-- Byte 3 has the value's bottom four bits above a zero nibble (30_encoding.md R76). -/
theorem encodeFrame_b3_toNat (k : CommandKind) (a : Channel) (v : Value) :
    (encodeFrame k a v).b3.toNat = v.toNat % 16 * 16 := by
  have hbottom : (v.extractLsb' 0 4).toNat = v.toNat % 16 := by simp [BitVec.extractLsb'_toNat]
  exact (toNat_append_eq (v.extractLsb' 0 4) 0#4).trans (congrArg (· * 16) hbottom)

/-- Settles O1: the nibbles by the laws of the byte's two halves, the numbers byte by byte; byte 0 of the
vectors is the code of their kind. -/
theorem formatGFrameBytes : Obligations.FormatGFrameBytes := by
  refine ⟨fun k a v => ?_, fun _ _ => ⟨rfl, rfl, rfl, rfl, rfl⟩⟩
  obtain ⟨hzero, hopc⟩ := encodeFrame_b0_nibbles k a v
  exact ⟨hzero, hopc, hiNibble_append _ _, encodeFrame_b1_toNat k a v, encodeFrame_b2_toNat k a v,
    encodeFrame_b3_toNat k a v, loNibble_append _ _⟩

end Sys2Proof
end

section
/-! PROOF of O17: every ENCODE request is the answer of its operands' format G frame, whose first byte is the
code of the request's kind (40_codec.md R100, R101, R109 to R113). -/

namespace Sys2Proof

/-- The format G frame with its opcode byte written as the value `b` it has (30_encoding.md R73 to R76, R79). -/
theorem encodeFrame_eq_of_opcode_byte (k : CommandKind) (a : Channel) (v : Value) (b : Byte)
    (hb : k.opc.zeroExtend 8 = b) :
    encodeFrame k a v =
      ⟨b, a.code ++ v.extractLsb' 12 4, v.extractLsb' 4 8, v.extractLsb' 0 4 ++ 0#4⟩ := by
  subst hb
  rfl

end Sys2Proof

namespace Sys2Proof.Machine

/-- An ENCODE request is answered with the format G frame of its operands, whatever the state
(40_codec.md R101). -/
theorem answersWith_of_encodeOperands? (i : Instr) (k : CommandKind) (a : Channel) (v : Value) (b : Byte)
    (hi : i.encodeOperands? = some (k, a, v)) (hb : k.opc.zeroExtend 8 = b) :
    answersWith i ⟨b, a.code ++ v.extractLsb' 12 4, v.extractLsb' 4 8, v.extractLsb' 0 4 ++ 0#4⟩ := by
  intro s
  rw [← encodeFrame_eq_of_opcode_byte k a v b hb]
  exact exec_encode i k a v s hi

/-- Settles O17: each form is the ENCODE request of its kind, and its first byte is that kind's code. -/
theorem encodeRequestsAreAnswered : Obligations.EncodeRequestsAreAnswered := by
  intro k a v
  refine ⟨?encode, ?powerControl, ?loadClearCode, ?loadLdac, ?reset, ?internalRef⟩
  case encode => exact answersWith_of_encodeOperands? _ k a v _ rfl rfl
  case powerControl => exact answersWith_of_encodeOperands? _ .powerControl a v _ rfl rfl
  case loadClearCode => exact answersWith_of_encodeOperands? _ .loadClearCode a v _ rfl rfl
  case loadLdac => exact answersWith_of_encodeOperands? _ .loadLdac a v _ rfl rfl
  case reset => exact answersWith_of_encodeOperands? _ .reset a v _ rfl rfl
  case internalRef => exact answersWith_of_encodeOperands? _ .internalRef a v _ rfl rfl

end Sys2Proof.Machine
end

section
/-! SUPPORT of O20, O25 and O27: which step an owned block takes when no request is at the port, phase by phase
(41_framer.md R149), the line after a pin call (10_state.md R29), and slots without a request. -/

namespace Sys2Proof.Machine

/-- Without a request the block advances (41_framer.md R149). -/
theorem step_of_no_request (s : State) (hq : s.offer = .nothing) : step s = .next s.take.advance := by
  simp [step, hq]

/-- In Assert the step without a request is the Assert step (41_framer.md R133). -/
theorem step_of_assert (s : State) (ho : s.own.isOwned = true) (hp : s.phase = .assert)
    (hq : s.offer = .nothing) : step s = .next s.take.assertStep := by
  obtain ⟨bus, pin, hown⟩ := (isOwned_iff _).1 ho
  simp [step_of_no_request s hq, State.advance, hown, hp]

/-- The Write step's next state when its bus call, with the latched frame, returns `r` (41_framer.md R133). -/
def State.afterBusCall (r : BusResult) (s : State) : State :=
  { s.busWrite s.frameReg r with phase := .deassert }

/-- In Write the step without a request is one bus call with the latched frame, if that call returns
(41_framer.md R133). -/
theorem step_of_write (s : State) (r : BusResult) (ho : s.own.isOwned = true) (hp : s.phase = .write)
    (hq : s.offer = .nothing) (hr : s.busDraw = .returns r) :
    step s = .next (s.take.afterBusCall r) := by
  obtain ⟨bus, pin, hown⟩ := (isOwned_iff _).1 ho
  simp [step_of_no_request s hq, State.advance, State.writeStep, State.afterBusCall, hown, hp, hr]

/-- In Deassert the step without a request is the Deassert step (41_framer.md R133). -/
theorem step_of_deassert (s : State) (ho : s.own.isOwned = true) (hp : s.phase = .deassert)
    (hq : s.offer = .nothing) : step s = .next s.take.deassertStep := by
  obtain ⟨bus, pin, hown⟩ := (isOwned_iff _).1 ho
  simp [step_of_no_request s hq, State.advance, hown, hp]

theorem pinSet_cs_of_ok (level : Level) (s : State) (h : s.pinDraw = .ok) :
    (s.pinSet level).cs = level := by
  simp [h]

theorem pinSet_cs_of_err (level : Level) (s : State) (p : PinErr) (h : s.pinDraw = .err p) :
    (s.pinSet level).cs = s.levelDraw := by
  simp [h]

/-- The Deassert step's events: the set-high, then the response with the latched result
(41_framer.md R133, R136). -/
theorem deassertStep_trace (s : State) :
    s.deassertStep.trace =
      s.trace ++ [.pin .high s.pinDraw, .resp (.command s.opReg) (responseOf s.wres)] := by
  simp [State.deassertStep]

/-- No request for `n + 1` steps: none in this one, and none for `n` steps after it. -/
theorem quietFor_succ (n : Nat) (s : State) :
    s.quietFor (n + 1) = true ↔ s.offer = .nothing ∧ s.take.quietFor n = true := by
  cases h : s.arrivals with
  | nil => simp [State.quietFor, State.offer, h]
  | cons slot rest => simp [State.quietFor, State.offer, h]

end Sys2Proof.Machine
end

section
/-! PROOF of O25: the Assert step reads no pin result to choose its next phase (41_framer.md R134). -/

namespace Sys2Proof.Machine

/-- Settles O25: the step is the Assert step, whose only read of the pin result is the line's level. -/
theorem assertStepIsUnchecked : Obligations.AssertStepIsUnchecked := by
  intro s ho hp hq
  have hok : s.pinDraw = .ok → s.take.assertStep.cs = .low := pinSet_cs_of_ok .low s.take
  have herr : ∀ p, s.pinDraw = .err p → s.take.assertStep.cs = s.levelDraw :=
    pinSet_cs_of_err .low s.take
  exact ⟨s.take.assertStep, step_of_assert s ho hp hq, rfl, rfl, hok, herr,
    rfl, rfl, rfl, rfl, rfl, rfl, rfl⟩

end Sys2Proof.Machine
end

section
/-! PROOF of O27: the Deassert step sets the line high whatever the write's result and responds with that
result (41_framer.md R136). -/

namespace Sys2Proof.Machine

/-- Settles O27: the step is the Deassert step, whose response is `responseOf` of the latched result. -/
theorem deassertStepResponds : Obligations.DeassertStepResponds := by
  intro s ho hp hq
  have hresp : s.take.deassertStep.resp = some (.framer (.command s.opReg) (responseOf s.wres)) := rfl
  have hok : s.pinDraw = .ok → s.take.deassertStep.cs = .high := pinSet_cs_of_ok .high s.take
  have herr : ∀ p, s.pinDraw = .err p → s.take.deassertStep.cs = s.levelDraw :=
    pinSet_cs_of_err .high s.take
  refine ⟨s.take.deassertStep, step_of_deassert s ho hp hq, rfl, deassertStep_trace s.take, hresp,
    ?writeOk, ?writeErr, hok, herr, rfl, rfl, rfl, rfl⟩
  case writeOk =>
    intro hw
    rw [hresp, hw, responseOf_ok]
  case writeErr =>
    intro e hw
    rw [hresp, hw, responseOf_err]

end Sys2Proof.Machine
end

section
/-! PROOF of O20: a per-command request is latched and then completes in three steps, Assert, Write and
Deassert (41_framer.md R131, R133, R137), so the control requests send their fixed frames (R142 to R144); and
which of these frames ENCODE gives (30_encoding.md R89). -/

namespace Sys2Proof

/-- ENCODE leaves the low nibble of byte 3 zero, and the enable frame has a 1 there (30_encoding.md R89). -/
theorem encodeFrame_ne_enableRefFrame (k : CommandKind) (a : Channel) (v : Value) :
    encodeFrame k a v ≠ enableRefFrame := by
  intro h
  have hzero : loNibble (encodeFrame k a v).b3 = 0#4 := loNibble_append _ _
  rw [h] at hzero
  exact absurd hzero (by decide)

end Sys2Proof

namespace Sys2Proof.Machine

/-- Owned and Idle, a per-command request is latched (41_framer.md R131). -/
theorem acceptCommand_of_idle (op : PerCommand) (f : Frame) (s : State) (ho : s.own.isOwned = true)
    (hp : s.phase = .idle) : s.acceptCommand op f = s.latchCommand op f := by
  rcases acceptCommand_spec op f s with ⟨-, -, hlatch⟩ | ⟨hnot | hnot, -⟩
  · exact hlatch
  · simp [ho] at hnot
  · exact absurd hp hnot

/-- The state at the end of the operation that `t`, in Assert, has latched, when its bus call returns `br`: each
step first takes its slot (41_framer.md R133). -/
def State.operationEnd (br : BusResult) (t : State) : State :=
  (t.take.assertStep.take.afterBusCall br).take.deassertStep

/-- Owned, in Assert and without requests, the next three steps are the Assert, Write and Deassert steps
(41_framer.md R133). -/
theorem stepsTo_operationEnd (t : State) (br : BusResult) (ho : t.own.isOwned = true)
    (hp : t.phase = .assert) (hquiet : t.quietFor 3 = true)
    (hbr : t.take.assertStep.busDraw = .returns br) : stepsTo 3 t (t.operationEnd br) := by
  obtain ⟨hq1, hquiet⟩ := (quietFor_succ 2 t).1 hquiet
  obtain ⟨hq2, hquiet⟩ := (quietFor_succ 1 t.take.assertStep).1 hquiet
  obtain ⟨hq3, -⟩ := (quietFor_succ 0 (t.take.assertStep.take.afterBusCall br)).1 hquiet
  have hassert := step_of_assert t ho hp hq1
  have hwrite := step_of_write t.take.assertStep br ho rfl hq2 hbr
  have hdeassert := step_of_deassert (t.take.assertStep.take.afterBusCall br) ho rfl hq3
  exact ⟨_, hassert, _, hwrite, _, hdeassert, rfl⟩

/-- An operation adds the set-low, the bus call with the latched frame, the set-high and the response with the
bus call's result (41_framer.md R137). -/
theorem operationEnd_trace (t : State) (br : BusResult) :
    (t.operationEnd br).trace = t.trace ++
      [.pin .low t.pinDraw, .bus t.frameReg br,
        .pin .high (t.take.assertStep.take.afterBusCall br).pinDraw,
        .resp (.command t.opReg) (responseOf br)] := by
  simp [State.operationEnd, deassertStep_trace, State.afterBusCall, State.assertStep]

theorem operationEnd_arrivals (t : State) (br : BusResult) :
    (t.operationEnd br).arrivals = t.arrivals.drop 3 := by
  have htaken : (t.operationEnd br).arrivals = t.arrivals.tail.tail.tail := rfl
  simp only [htaken, ← List.drop_one, List.drop_drop]

/-- An owned block in Assert completes the latched request (41_framer.md R133, R137). -/
theorem completes_of_assert (t : State) (ho : t.own.isOwned = true) (hp : t.phase = .assert) :
    t.completes t.opReg t.frameReg := by
  intro hquiet br hbr
  have hcs : (t.take.assertStep.take.afterBusCall br).pinDraw = .ok → (t.operationEnd br).cs = .high :=
    pinSet_cs_of_ok .high (t.take.assertStep.take.afterBusCall br).take
  exact ⟨_, t.operationEnd br, stepsTo_operationEnd t br ho hp hquiet hbr, operationEnd_trace t br,
    rfl, rfl, rfl, hcs, rfl, rfl, operationEnd_arrivals t br⟩

/-- Every per-command request sends its frame in one framed write (41_framer.md R131, R133, R137). -/
theorem sendsInOneFramedWrite_of_command? (i : Instr) (op : PerCommand) (f : Frame)
    (hi : i.command? = some (op, f)) : sendsInOneFramedWrite i op f := by
  intro s ho hp
  have hexec : exec i s = .next (s.latchCommand op f) := by
    rw [exec_command i op f s hi, acceptCommand_of_idle op f s ho hp]
  exact ⟨hexec, completes_of_assert (s.latchCommand op f) ho rfl⟩

/-- Settles O20: each control request is a per-command request with its fixed frame. -/
theorem controlRequestsSendTheirFrame : Obligations.ControlRequestsSendTheirFrame := by
  refine ⟨?enable, ?disable, ?reset, encodeFrame_ne_enableRefFrame, ?encodeDisable, ?encodeReset⟩
  case enable => exact sendsInOneFramedWrite_of_command? _ _ _ rfl
  case disable => exact sendsInOneFramedWrite_of_command? _ _ _ rfl
  case reset => exact sendsInOneFramedWrite_of_command? _ _ _ rfl
  case encodeDisable => decide
  case encodeReset => decide

end Sys2Proof.Machine
end

section
/-! PROOF of O31: a run of one accepted request is determined, and the bus result it reads reaches only the
trace and the response port, so an error takes the path of a success (60_exceptions.md R175). -/

namespace Sys2Proof.Machine

/-- A number of steps from a state leads to one state. -/
theorem stepsTo_unique (k : Nat) (s t t' : State) (h : stepsTo k s t) (h' : stepsTo k s t') : t = t' := by
  induction k generalizing s with
  | zero => exact h.symm.trans h'
  | succ k ih =>
    obtain ⟨m, hm, h⟩ := h
    obtain ⟨m', hm', h'⟩ := h'
    obtain rfl : m = m' := Host.Outcome.next.inj (hm.symm.trans hm')
    exact ih m h h'

/-- Owned and Idle, the step with a per-command request at the port latches it (41_framer.md R131). -/
theorem step_of_command (i : Instr) (op : PerCommand) (f : Frame) (s : State)
    (hi : i.command? = some (op, f)) (ho : s.own.isOwned = true) (hp : s.phase = .idle)
    (hoffer : s.offer = .request i) : step s = .next (s.take.latchCommand op f) := by
  have hstep : step s = exec i s.take := by simp [step, hoffer]
  rw [hstep, exec_command i op f s.take hi, acceptCommand_of_idle op f s.take ho hp]

/-- A per-command request is accepted and, in quiet slots and with a scripted bus result, completes in four
steps (41_framer.md R131, R137). -/
theorem stepsTo_of_command (i : Instr) (op : PerCommand) (f : Frame) (s : State) (br : BusResult)
    (bs : List BusAnswer) (hi : i.command? = some (op, f)) (ho : s.own.isOwned = true)
    (hp : s.phase = .idle) (hoffer : s.offer = .request i) (hquiet : s.take.quietFor 3 = true)
    (hbus : s.busAnswers = .returns br :: bs) :
    stepsTo 4 s ((s.take.latchCommand op f).operationEnd br) := by
  have hdraw : (s.take.latchCommand op f).take.assertStep.busDraw = .returns br :=
    busDraw_cons _ _ bs hbus
  exact ⟨_, step_of_command i op f s hi ho hp hoffer, stepsTo_operationEnd _ br ho rfl hquiet hdraw⟩

/-- `s` with the coming bus call scripted to return `br`. -/
def State.busReturns (br : BusResult) (bs : List BusAnswer) (s : State) : State :=
  { s with busAnswers := .returns br :: bs }

/-- The bus result of an operation reaches only the trace and the response port: the Deassert step drops the
latched result, and either result uses up one bus answer and one free value (41_framer.md R133, R136). -/
theorem operationEnd_busReturns (t : State) (r r' : BusResult) (bs : List BusAnswer) :
    (t.busReturns r' bs).operationEnd r' =
      { (t.busReturns r bs).operationEnd r with
        trace := ((t.busReturns r' bs).operationEnd r').trace
        resp := some (.framer (.command t.opReg) (responseOf r')) } := rfl

/-- Settles O31: both runs are the run of the accepted request, and the ends of the two differ as
`operationEnd_busReturns` says; neither pin result depends on the bus result. -/
theorem errorPathIsTheSuccessPath : Obligations.ErrorPathIsTheSuccessPath := by
  intro i op f s u e bs hi ho hp hoffer hquiet hrun
  have hends (r : BusResult) : stepsTo 4 (s.busReturns r bs)
      (((s.take.latchCommand op f).busReturns r bs).operationEnd r) :=
    stepsTo_of_command i op f (s.busReturns r bs) r bs hi ho hp hoffer hquiet rfl
  obtain rfl := stepsTo_unique 4 _ _ _ hrun (hends .ok)
  have herr := hends (.err e)
  rw [operationEnd_busReturns _ .ok (.err e) bs, operationEnd_trace] at herr
  exact ⟨rfl, rfl, _, _, operationEnd_trace _ .ok, rfl, herr⟩

end Sys2Proof.Machine
end

section
/-! PROOF of O4, O2, O3, O5 and O6: what a format G frame determines, its word, the codes and the vectors of the
source (30_encoding.md R77 to R80, R89; 40_codec.md R104). -/

namespace Sys2Proof

/-- Settles O4: reading a frame gives the kind, channel and value it was packed from. -/
theorem encodeFrameInjective : Obligations.EncodeFrameInjective := by
  intro k k' a a' v v' h
  have hread : readGeneric (encodeFrame k a v) = .ok (k, a, v) := (readGeneric_ok _ k a v).2 rfl
  have hread' : readGeneric (encodeFrame k a v) = .ok (k', a', v') := (readGeneric_ok _ k' a' v').2 h
  simpa using hread.symm.trans hread'

/-- A word is its bytes in base 256, `b0` first (20_memory.md R53). -/
theorem word_toNat (f : Frame) :
    f.word.toNat =
      ((f.b0.toNat * 2 ^ 8 + f.b1.toNat) * 2 ^ 8 + f.b2.toNat) * 2 ^ 8 + f.b3.toNat := by
  simp only [Frame.word, toNat_append_eq]

/-- The frame of a word is the inverse of the word view (20_memory.md R53). -/
theorem ofWord_word (f : Frame) : Frame.ofWord f.word = f := by
  have hw := word_toNat f
  have h1 := f.b1.isLt
  have h2 := f.b2.isLt
  have h3 := f.b3.isLt
  have hbyte (start : Nat) (b : Byte) (h : f.word.toNat / 2 ^ start % 2 ^ 8 = b.toNat) :
      f.word.extractLsb' start 8 = b := by
    apply BitVec.eq_of_toNat_eq
    rw [BitVec.extractLsb'_toNat, Nat.shiftRight_eq_div_pow, h]
  have e0 := hbyte 24 f.b0 (by omega)
  have e1 := hbyte 16 f.b1 (by omega)
  have e2 := hbyte 8 f.b2 (by omega)
  have e3 := hbyte 0 f.b3 (by omega)
  simp only [Frame.ofWord, e0, e1, e2, e3]

/-- Settles O2: the bytes of the frame as numbers, weighted as in the word view. -/
theorem formatGFrameWord : Obligations.FormatGFrameWord := by
  intro k a v
  refine ⟨?_, ofWord_word _⟩
  have hb0 : (encodeFrame k a v).b0.toNat = k.opc.toNat := by simp [encodeFrame]; omega
  have hv : v.toNat < 65536 := v.isLt
  rw [word_toNat, hb0, encodeFrame_b1_toNat, encodeFrame_b2_toNat, encodeFrame_b3_toNat]
  omega

/-- Settles O3: the lists in order, and each kind and channel found in its list. -/
theorem opcodeAndChannelCodes : Obligations.OpcodeAndChannelCodes := by
  refine ⟨by decide, by decide, fun k => ?_, fun a => ?_⟩
  · cases k <;> decide
  · cases a <;> decide

/-- Settles O5: six closed frames. -/
theorem sourceVectors : Obligations.SourceVectors := by
  refine ⟨?_, ?_, ?_, rfl, rfl, rfl⟩ <;> decide

/-- The reset frame is a format G frame (30_encoding.md R89). -/
theorem encodeFrame_reset_dacA_zero : encodeFrame .reset .dacA 0x0000#16 = resetFrame := by decide

/-- The disable frame is a format G frame (30_encoding.md R89). -/
theorem encodeFrame_internalRef_dacA_zero : encodeFrame .internalRef .dacA 0x0000#16 = disableRefFrame := by
  decide

/-- Settles O6: two frames coincide, and byte 3 keeps the enable frame apart. -/
theorem controlFrameEquivalences : Obligations.ControlFrameEquivalences :=
  ⟨encodeFrame_reset_dacA_zero, encodeFrame_internalRef_dacA_zero, encodeFrame_ne_enableRefFrame, by decide⟩

end Sys2Proof
end

section
/-! PROOF of O7, O8, O9 and O11: a frame decodes to a request exactly when it is the frame of that request's
well-formed row, so decoder and encoder are inverse (30_encoding.md sections 2 to 5). -/

namespace Sys2Proof

theorem encodeFrame_eq_resetFrame (k : CommandKind) (a : Channel) (v : Value) :
    encodeFrame k a v = resetFrame ↔ k = .reset ∧ a = .dacA ∧ v = 0#16 := by
  rw [← encodeFrame_reset_dacA_zero]
  constructor
  · exact encodeFrameInjective k .reset a .dacA v 0#16
  · rintro ⟨rfl, rfl, rfl⟩
    rfl

theorem encodeFrame_eq_disableRefFrame (k : CommandKind) (a : Channel) (v : Value) :
    encodeFrame k a v = disableRefFrame ↔ k = .internalRef ∧ a = .dacA ∧ v = 0#16 := by
  rw [← encodeFrame_internalRef_dacA_zero]
  constructor
  · exact encodeFrameInjective k .internalRef a .dacA v 0#16
  · rintro ⟨rfl, rfl, rfl⟩
    rfl

/-- The row of a kind holds that kind's format G frame. -/
@[simp] theorem tableFrame_rowOfKind (k : CommandKind) (a : Channel) (v : Value) :
    (rowOfKind k a v).tableFrame = some (encodeFrame k a v) := by
  cases k <;> rfl

/-- The rows that are no table rows are those whose frame is a control frame (30_encoding.md R89). -/
theorem wellFormed_rowOfKind (k : CommandKind) (a : Channel) (v : Value) :
    (rowOfKind k a v).wellFormed = true ↔
      encodeFrame k a v ≠ resetFrame ∧ encodeFrame k a v ≠ disableRefFrame := by
  rw [Ne, Ne, encodeFrame_eq_resetFrame, encodeFrame_eq_disableRefFrame]
  cases k <;> simp [rowOfKind, Instr.wellFormed, imp_iff_not_or]

/-- The rows with bits: the three control requests, and one row for each kind. -/
theorem tableFrame_eq_some (i : Instr) (f : Frame) (h : i.tableFrame = some f) :
    (i = .reset ∧ f = resetFrame) ∨ (i = .enableInternalReference ∧ f = enableRefFrame) ∨
    (i = .disableInternalReference ∧ f = disableRefFrame) ∨
    (∃ k a v, i = rowOfKind k a v ∧ f = encodeFrame k a v) := by
  have hrow (k : CommandKind) (a : Channel) (v : Value) (hi : i = rowOfKind k a v) :
      ∃ k a v, i = rowOfKind k a v ∧ f = encodeFrame k a v := by
    rw [hi, tableFrame_rowOfKind] at h
    exact ⟨k, a, v, hi, (Option.some.inj h).symm⟩
  cases i with
  | writeInputRegister a v => exact .inr (.inr (.inr (hrow .writeInput a v rfl)))
  | updateDacRegister a v => exact .inr (.inr (.inr (hrow .updateDac a v rfl)))
  | writeInputUpdateAll a v => exact .inr (.inr (.inr (hrow .writeInputUpdateAll a v rfl)))
  | writeAndUpdateChannel a v => exact .inr (.inr (.inr (hrow .writeUpdateChannel a v rfl)))
  | encodePowerControl a v => exact .inr (.inr (.inr (hrow .powerControl a v rfl)))
  | encodeLoadClearCode a v => exact .inr (.inr (.inr (hrow .loadClearCode a v rfl)))
  | encodeLoadLdac a v => exact .inr (.inr (.inr (hrow .loadLdac a v rfl)))
  | encodeReset a v => exact .inr (.inr (.inr (hrow .reset a v rfl)))
  | encodeInternalRef a v => exact .inr (.inr (.inr (hrow .internalRef a v rfl)))
  | reset => exact .inl ⟨rfl, (Option.some.inj h).symm⟩
  | enableInternalReference => exact .inr (.inl ⟨rfl, (Option.some.inj h).symm⟩)
  | disableInternalReference => exact .inr (.inr (.inl ⟨rfl, (Option.some.inj h).symm⟩))
  | init bus pin => cases h
  | release => cases h
  | encode k a v => cases h

/-- A frame that is no control frame decodes as its format G reading. -/
theorem decodeFrame_of_not_control (f : Frame) (hr : f ≠ resetFrame) (he : f ≠ enableRefFrame)
    (hd : f ≠ disableRefFrame) :
    decodeFrame f = (readGeneric f).map (fun x => rowOfKind x.1 x.2.1 x.2.2) := by
  unfold decodeFrame
  rw [if_neg hr, if_neg he, if_neg hd]
  cases readGeneric f <;> rfl

/-- A frame decodes to the request of which it is the frame, if that request is a row of the table. -/
theorem decodeFrame_eq_ok (f : Frame) (i : Instr) :
    decodeFrame f = .ok i ↔ i.wellFormed = true ∧ i.tableFrame = some f := by
  constructor
  · intro h
    by_cases hr : f = resetFrame
    · subst hr
      obtain rfl : Instr.reset = i := Except.ok.inj h
      exact ⟨rfl, rfl⟩
    by_cases he : f = enableRefFrame
    · subst he
      obtain rfl : Instr.enableInternalReference = i := Except.ok.inj h
      exact ⟨rfl, rfl⟩
    by_cases hd : f = disableRefFrame
    · subst hd
      obtain rfl : Instr.disableInternalReference = i := Except.ok.inj h
      exact ⟨rfl, rfl⟩
    rw [decodeFrame_of_not_control f hr he hd] at h
    cases hg : readGeneric f with
    | error e =>
      rw [hg] at h
      cases h
    | ok x =>
      obtain ⟨k, a, v⟩ := x
      rw [hg] at h
      obtain rfl : rowOfKind k a v = i := Except.ok.inj h
      obtain rfl := (readGeneric_ok f k a v).1 hg
      exact ⟨(wellFormed_rowOfKind k a v).2 ⟨hr, hd⟩, tableFrame_rowOfKind k a v⟩
  · rintro ⟨hwf, hf⟩
    rcases tableFrame_eq_some i f hf with ⟨rfl, rfl⟩ | ⟨rfl, rfl⟩ | ⟨rfl, rfl⟩ | ⟨k, a, v, rfl, rfl⟩
    · rfl
    · rfl
    · rfl
    · obtain ⟨hr, hd⟩ := (wellFormed_rowOfKind k a v).1 hwf
      rw [decodeFrame_of_not_control _ hr (encodeFrame_ne_enableRefFrame k a v) hd,
        (readGeneric_ok _ k a v).2 rfl]
      rfl

@[simp] theorem decode_bytes (f : Frame) : decode f.bytes = decodeFrame f := rfl

/-- Bytes decode only when they are the four bytes of a frame (30_encoding.md R71). -/
theorem decode_of_length_ne (bs : List Byte) (h : bs.length ≠ 4) : decode bs = .error .length := by
  unfold decode
  split
  · exact absurd rfl h
  · rfl

/-- Four bytes are the bytes of a frame (20_memory.md R51). -/
theorem exists_bytes_of_length (bs : List Byte) (h : bs.length = 4) : ∃ f : Frame, bs = f.bytes := by
  obtain ⟨b0, b1, b2, b3, rfl⟩ := List.length_eq_four.1 h
  exact ⟨⟨b0, b1, b2, b3⟩, rfl⟩

/-- Settles O7: the encoder gives the bytes of the row's frame, which decodes to the row. -/
theorem decodeEncodeRoundTrip : Obligations.DecodeEncodeRoundTrip := by
  intro i bs hwf henc
  obtain ⟨f, hf, rfl⟩ := Option.map_eq_some_iff.1 henc
  exact (decodeFrame_eq_ok f i).2 ⟨hwf, hf⟩

/-- Settles O8: bytes that decode are a frame's, and the frame is that of the row it decodes to. -/
theorem encodeDecodeRoundTrip : Obligations.EncodeDecodeRoundTrip := by
  intro bs i h
  by_cases hlen : bs.length = 4
  · obtain ⟨f, rfl⟩ := exists_bytes_of_length bs hlen
    obtain ⟨hwf, hf⟩ := (decodeFrame_eq_ok f i).1 h
    exact ⟨hwf, by simp [encode, hf]⟩
  · rw [decode_of_length_ne bs hlen] at h
    cases h

/-- Settles O9, row by row. -/
theorem rowsWithoutBits : Obligations.RowsWithoutBits := by
  intro i
  cases i <;> simp [encode, Instr.tableFrame]

/-- Settles O11: eight closed words. -/
theorem decodeTableWords : Obligations.DecodeTableWords := by
  refine ⟨?_, ?_, ?_, ?_, ?_, ?_, ?_, ?_⟩ <;> decide

end Sys2Proof
end

section
/-! PROOF of O10, O12 and O13: what the frame reader, the checker and the bus accept
(30_encoding.md R83 to R90, 41_framer.md R148). -/

namespace Sys2Proof

/-- The frame reader refuses exactly the reserved encodings (30_encoding.md R83 to R85). -/
theorem readGeneric_eq_error (f : Frame) :
    (∃ e, readGeneric f = .error e) ↔
      hiNibble f.b0 ≠ 0#4 ∨ loNibble f.b3 ≠ 0#4 ∨ 8 < f.opcodeField.toNat ∨
        (8 ≤ f.addressField.toNat ∧ f.addressField.toNat ≤ 14) := by
  rw [← ofOpc?_eq_none, ← ofCode?_eq_none]
  unfold readGeneric
  by_cases h0 : hiNibble f.b0 = 0#4
  · by_cases h3 : loNibble f.b3 = 0#4
    · cases hk : CommandKind.ofOpc? f.opcodeField with
      | none => simp [h0, h3]
      | some k => cases ha : Channel.ofCode? f.addressField <;> simp [h0, h3]
    · simp [h0, h3]
  · simp [h0]

/-- The decoder refuses a frame that is not the enable frame exactly when the frame reader does. -/
theorem decodeFrame_eq_error (f : Frame) :
    (∃ e, decodeFrame f = .error e) ↔ f ≠ enableRefFrame ∧ ∃ e, readGeneric f = .error e := by
  by_cases hr : f = resetFrame
  · have hread := (readGeneric_ok f .reset .dacA 0#16).2 (hr.trans encodeFrame_reset_dacA_zero.symm)
    have hdec : decodeFrame f = .ok .reset := (decodeFrame_eq_ok f _).2 ⟨rfl, congrArg some hr.symm⟩
    simp [hdec, hread]
  by_cases he : f = enableRefFrame
  · have hdec : decodeFrame f = .ok .enableInternalReference :=
      (decodeFrame_eq_ok f _).2 ⟨rfl, congrArg some he.symm⟩
    simp [← he, hdec]
  by_cases hd : f = disableRefFrame
  · have hread :=
      (readGeneric_ok f .internalRef .dacA 0#16).2 (hd.trans encodeFrame_internalRef_dacA_zero.symm)
    have hdec : decodeFrame f = .ok .disableInternalReference :=
      (decodeFrame_eq_ok f _).2 ⟨rfl, congrArg some hd.symm⟩
    simp [hdec, hread]
  · rw [decodeFrame_of_not_control f hr he hd]
    cases readGeneric f <;> simp [Except.map, he]

theorem hiNibble_toNat : ∀ b : Byte, (hiNibble b).toNat = b.toNat / 16 := by decide

theorem loNibble_toNat : ∀ b : Byte, (loNibble b).toNat = b.toNat % 16 := by decide

theorem hiNibble_ne_zero (b : Byte) : hiNibble b ≠ 0#4 ↔ 16 ≤ b.toNat := by
  rw [Ne, ← BitVec.toNat_inj, hiNibble_toNat]
  simp

theorem loNibble_ne_zero (b : Byte) : loNibble b ≠ 0#4 ↔ b.toNat % 16 ≠ 0 := by
  rw [Ne, ← BitVec.toNat_inj, loNibble_toNat]
  simp

/-- Settles O10: the reader's four reasons, as numbers. -/
theorem decoderRefusesExactlyReserved : Obligations.DecoderRefusesExactlyReserved := by
  refine ⟨fun f => ?_, decode_of_length_ne⟩
  rw [decode_bytes, decodeFrame_eq_error, readGeneric_eq_error, hiNibble_ne_zero, loNibble_ne_zero,
    Frame.opcodeField, Frame.addressField, loNibble_toNat, hiNibble_toNat]
  exact Iff.rfl

/-- The checker's first step finds the rows of the control frames (30_encoding.md R78). -/
theorem control_mem_controlReading (op : PerCommand) (f : Frame) :
    Reading.control op ∈ controlReading f ↔
      (op = .reset ∧ f = resetFrame) ∨ (op = .enableInternalReference ∧ f = enableRefFrame) ∨
      (op = .disableInternalReference ∧ f = disableRefFrame) := by
  simp only [controlReading, List.mem_map, List.mem_filter, controlRows, List.mem_cons, List.not_mem_nil,
    or_false, beq_iff_eq, Reading.control.injEq]
  constructor
  · rintro ⟨row, ⟨rfl | rfl | rfl, rfl⟩, rfl⟩
    · exact .inl ⟨rfl, rfl⟩
    · exact .inr (.inl ⟨rfl, rfl⟩)
    · exact .inr (.inr ⟨rfl, rfl⟩)
  · rintro (⟨rfl, rfl⟩ | ⟨rfl, rfl⟩ | ⟨rfl, rfl⟩)
    · exact ⟨_, ⟨.inl rfl, rfl⟩, rfl⟩
    · exact ⟨_, ⟨.inr (.inl rfl), rfl⟩, rfl⟩
    · exact ⟨_, ⟨.inr (.inr rfl), rfl⟩, rfl⟩

theorem generic_not_mem_controlReading (k : CommandKind) (a : Channel) (v : Value) (f : Frame) :
    Reading.generic k a v ∉ controlReading f := by
  simp [controlReading]

/-- The checker's second step finds the format G reading (30_encoding.md R87). -/
theorem generic_mem_genericReading (k : CommandKind) (a : Channel) (v : Value) (f : Frame) :
    Reading.generic k a v ∈ genericReading f ↔ f = encodeFrame k a v := by
  rw [← readGeneric_ok]
  unfold genericReading
  cases readGeneric f with
  | error e => simp
  | ok x => simp [Prod.ext_iff, eq_comm]

theorem control_not_mem_genericReading (op : PerCommand) (f : Frame) :
    Reading.control op ∉ genericReading f := by
  unfold genericReading
  cases readGeneric f <;> simp

/-- Settles O12: each reading is found by one of the two steps of the checker. -/
theorem classifierIsExact : Obligations.ClassifierIsExact := by
  intro f
  refine ⟨fun k a v => ?_, fun op => ?_⟩
  · rw [classify, List.mem_append, generic_mem_genericReading]
    exact or_iff_right (generic_not_mem_controlReading k a v f)
  · rw [classify, List.mem_append, control_mem_controlReading]
    exact or_iff_left (control_not_mem_genericReading op f)

/-- A control request sends its fixed frame and no other (30_encoding.md R90). -/
theorem sends_control (op : PerCommand) (f : Frame) (hk : op.kind? = none) :
    op.sends f = true ↔
      (op = .reset ∧ f = resetFrame) ∨ (op = .enableInternalReference ∧ f = enableRefFrame) ∨
      (op = .disableInternalReference ∧ f = disableRefFrame) := by
  constructor
  · intro h
    have hread : controlReading f = [.control op] := by simpa [PerCommand.sends, hk] using h
    exact (control_mem_controlReading op f).1 (by simp [hread])
  · rintro (⟨rfl, rfl⟩ | ⟨rfl, rfl⟩ | ⟨rfl, rfl⟩) <;> decide

theorem busFrame_iff (f : Frame) : busFrame f = true ↔ ∃ op : PerCommand, op.sends f = true := by
  simp [busFrame, mem_perCommand_all]

/-- The kinds of the data requests are those of opcode 0 to 3 (30_encoding.md R79, R90). -/
theorem exists_kind?_eq_some (k : CommandKind) :
    (∃ op : PerCommand, op.kind? = some k) ↔ k.opc.toNat ≤ 3 := by
  constructor
  · rintro ⟨op, h⟩
    cases op <;> cases h <;> decide
  · intro h
    cases k
    case writeInput => exact ⟨.writeInputRegister, rfl⟩
    case updateDac => exact ⟨.updateDacRegister, rfl⟩
    case writeInputUpdateAll => exact ⟨.writeInputUpdateAll, rfl⟩
    case writeUpdateChannel => exact ⟨.writeAndUpdateChannel, rfl⟩
    all_goals exact absurd h (by decide)

/-- Settles O13: a data request sends the format G frames of its kind, a control request its fixed frame. -/
theorem busFramesAreExactlyThese : Obligations.BusFramesAreExactlyThese := by
  intro f
  rw [busFrame_iff]
  constructor
  · rintro ⟨op, h⟩
    cases hk : op.kind? with
    | none =>
      rcases (sends_control op f hk).1 h with ⟨-, hf⟩ | ⟨-, hf⟩ | ⟨-, hf⟩
      · exact .inr (.inl hf)
      · exact .inr (.inr (.inl hf))
      · exact .inr (.inr (.inr hf))
    | some k =>
      obtain ⟨a, v, hf⟩ := (sends_data op k hk f).1 h
      exact .inl ⟨k, a, v, (exists_kind?_eq_some k).1 ⟨op, hk⟩, hf⟩
  · rintro (⟨k, a, v, hle, hf⟩ | hf | hf | hf)
    · obtain ⟨op, hk⟩ := (exists_kind?_eq_some k).2 hle
      exact ⟨op, (sends_data op k hk f).2 ⟨a, v, hf⟩⟩
    · exact ⟨.reset, (sends_control _ f rfl).2 (.inl ⟨rfl, hf⟩)⟩
    · exact ⟨.enableInternalReference, (sends_control _ f rfl).2 (.inr (.inl ⟨rfl, hf⟩))⟩
    · exact ⟨.disableInternalReference, (sends_control _ f rfl).2 (.inr (.inr ⟨rfl, hf⟩))⟩

end Sys2Proof
end

section
/-! PROOF of O14, O15 and O16: the wire order, the bytes of a failed write and the textual form
(20_memory.md R54, R56; 30_encoding.md R88). -/

namespace Sys2Proof

/-- The bits of the word view are the bits of its bytes, `b3` lowest (20_memory.md R53). -/
theorem word_getLsbD (f : Frame) (n : Nat) :
    f.word.getLsbD n =
      if n < 8 then f.b3.getLsbD n
      else if n < 16 then f.b2.getLsbD (n - 8)
      else if n < 24 then f.b1.getLsbD (n - 16)
      else f.b0.getLsbD (n - 24) := by
  simp only [Frame.word, BitVec.getLsbD_append]
  simp only [Nat.sub_sub, Nat.reduceAdd, show n - 8 < 8 ↔ n < 16 by omega,
    show n - 16 < 8 ↔ n < 24 by omega]

/-- The default order goes byte by byte, `b0` first, each byte most significant bit first. -/
theorem defaultWireOrder_eq_bytes :
    defaultWireOrder = [24, 16, 8, 0].flatMap (fun base => (List.range 8).reverse.map (base + ·)) := by
  decide

/-- Settles O14: the default order lists the bit positions byte by byte. -/
theorem defaultWireOrder_sends_bytes : Obligations.DefaultWireOrder := by
  refine ⟨by decide, fun f => ?_⟩
  have hbyte (base : Nat) (b : Byte) (h : ∀ n, n < 8 → f.word.getLsbD (base + n) = b.getLsbD n) :
      ((List.range 8).reverse.map (base + ·)).map (fun n => f.word.getLsbD n) = byteBits b := by
    rw [List.map_map, byteBits]
    refine List.map_congr_left fun n hn => ?_
    exact h n (by simpa using hn)
  have h0 := hbyte 24 f.b0 fun n _ => by
    rw [word_getLsbD, if_neg (by omega), if_neg (by omega), if_neg (by omega), Nat.add_sub_cancel_left]
  have h1 := hbyte 16 f.b1 fun n _ => by
    rw [word_getLsbD, if_neg (by omega), if_neg (by omega), if_pos (by omega), Nat.add_sub_cancel_left]
  have h2 := hbyte 8 f.b2 fun n _ => by
    rw [word_getLsbD, if_neg (by omega), if_pos (by omega), Nat.add_sub_cancel_left]
  have h3 := hbyte 0 f.b3 fun n _ => by
    rw [word_getLsbD, if_pos (by omega), Nat.zero_add]
  simp only [wireBits, defaultWireOrder_eq_bytes, Frame.bytes, List.flatMap_cons, List.flatMap_nil,
    List.map_append, h0, h1, h2, h3, List.map_nil]

/-- Settles O15: an initial part of four bytes is what stands before a cut at some length up to four. -/
theorem failedWriteDeliversAnInitialPart : Obligations.FailedWriteDeliversAnInitialPart := by
  intro f bs
  refine ⟨fun e => ?_, by simp [mayDeliver]⟩
  have hlen : f.bytes.length = 4 := rfl
  have hinitial : mayDeliver f (.err e) bs = true ↔ bs <+: f.bytes := List.isPrefixOf_iff_prefix
  rw [hinitial]
  constructor
  · intro h
    exact ⟨bs.length, hlen ▸ h.length_le, List.prefix_iff_eq_take.1 h⟩
  · rintro ⟨n, -, rfl⟩
    exact List.take_prefix n f.bytes

/-- Operands joined by a comma and a space split where they were joined, if none of them holds a comma. -/
theorem splitOperands_joinOperands (w : List Char) (ws : List (List Char))
    (h : ∀ x ∈ w :: ws, x.all (fun c => c != ',') = true) :
    splitOperands (joinOperands (w :: ws)) = w :: ws := by
  induction ws generalizing w with
  | nil => exact splitOperands_single w (h w (by simp))
  | cons x ws ih =>
    have hrest := ih x fun y hy => h y (List.mem_cons_of_mem w hy)
    rw [joinOperands, splitOperands_cons w _ (h w (by simp)), hrest]
    intro hnil
    cases hnil

/-- No operand of a request holds a comma. -/
theorem operands_no_comma (i : Instr) : ∀ x ∈ i.operands, x.all (fun c => c != ',') = true := by
  have hdata (a : Channel) (v : Value) :
      ∀ x ∈ [a.text, valueText v], x.all (fun c => c != ',') = true := by
    simp only [List.forall_mem_cons, List.not_mem_nil, channel_text_no_comma, valueText_no_comma,
      IsEmpty.forall_iff, implies_true, and_self]
  have hencode (k : CommandKind) (a : Channel) (v : Value) :
      ∀ x ∈ [k.text, a.text, valueText v], x.all (fun c => c != ',') = true :=
    List.forall_mem_cons.2 ⟨kind_text_no_comma k, hdata a v⟩
  have hinit : ∀ x ∈ ["bus".toList, "pin".toList], x.all (fun c => c != ',') = true := by decide
  have hbare : ∀ x ∈ ([] : List (List Char)), x.all (fun c => c != ',') = true := by simp
  cases i with
  | writeInputRegister a v => exact hdata a v
  | updateDacRegister a v => exact hdata a v
  | writeInputUpdateAll a v => exact hdata a v
  | writeAndUpdateChannel a v => exact hdata a v
  | encodePowerControl a v => exact hencode _ a v
  | encodeLoadClearCode a v => exact hencode _ a v
  | encodeLoadLdac a v => exact hencode _ a v
  | encodeReset a v => exact hencode _ a v
  | encodeInternalRef a v => exact hencode _ a v
  | encode k a v => exact hencode k a v
  | init bus pin => exact hinit
  | reset => exact hbare
  | enableInternalReference => exact hbare
  | disableInternalReference => exact hbare
  | release => exact hbare

/-- A text without a space is all mnemonic. -/
theorem splitFirst_no_space (w : List Char) (h : w.all (fun c => c != ' ') = true) :
    splitFirst ' ' w = (w, none) := by
  induction w with
  | nil => rfl
  | cons c w ih =>
    obtain ⟨hc, hw⟩ : c ≠ ' ' ∧ w.all (fun c => c != ' ') = true := by simpa using h
    rw [splitFirst, if_neg hc, ih hw]

/-- The line of a request is read as its mnemonic and its operands. -/
theorem parseLine_line (bus : BusCap) (pin : PinCap) (i : Instr) :
    parseLine bus pin i.line = parseWords bus pin i.mnemonic i.operands := by
  have hm := mnemonic_no_space i
  have hw := operands_no_comma i
  unfold Instr.line
  cases hops : i.operands with
  | nil => simp [parseLine, splitFirst_no_space _ hm]
  | cons w ws =>
    rw [hops] at hw
    simp only [parseLine_words bus pin _ _ hm, splitOperands_joinOperands w ws hw]

@[simp] theorem parseData_text (make : Channel → Value → Instr) (a : Channel) (v : Value) :
    parseData make [a.text, valueText v] = some (make a v) := by
  simp [parseData]

@[simp] theorem parseEncode_text (k : CommandKind) (a : Channel) (v : Value) :
    parseEncode [k.text, a.text, valueText v] = some (.encode k a v) := by
  simp [parseEncode]

/-- The mnemonic `encode` is read with the operands of `encode`. -/
theorem parseWords_encode (bus : BusCap) (pin : PinCap) (ws : List (List Char)) :
    parseWords bus pin "encode".toList ws = parseEncode ws := rfl

/-- Settles O16: mnemonic and operands of each request read back as the request. -/
theorem textRoundTrip : Obligations.TextRoundTrip := by
  intro i bus pin hcaps
  rw [parseLine_line]
  have hencode (k : CommandKind) (a : Channel) (v : Value) :
      parseWords bus pin "encode".toList [k.text, a.text, valueText v] = some (.encode k a v) :=
    (parseWords_encode bus pin _).trans (parseEncode_text k a v)
  cases i with
  | writeInputRegister a v => exact parseData_text .writeInputRegister a v
  | updateDacRegister a v => exact parseData_text .updateDacRegister a v
  | writeInputUpdateAll a v => exact parseData_text .writeInputUpdateAll a v
  | writeAndUpdateChannel a v => exact parseData_text .writeAndUpdateChannel a v
  | encodePowerControl a v => exact hencode .powerControl a v
  | encodeLoadClearCode a v => exact hencode .loadClearCode a v
  | encodeLoadLdac a v => exact hencode .loadLdac a v
  | encodeReset a v => exact hencode .reset a v
  | encodeInternalRef a v => exact hencode .internalRef a v
  | encode k a v => exact hencode k a v
  | init b p =>
    obtain ⟨rfl, rfl⟩ := hcaps b p rfl
    rfl
  | reset => rfl
  | enableInternalReference => rfl
  | disableInternalReference => rfl
  | release => rfl

end Sys2Proof
end

section
/-! SUPPORT of O18 to O37: requests by class and what each answers (41_framer.md R130, R145 to R147). -/

namespace Sys2Proof.Machine

/-- A per-command request is refused unless the block is owned and Idle (60_exceptions.md R179). -/
theorem refusedIn_of_command? (i : Instr) (c : PerCommand × Frame) (own : Ownership) (phase : Phase)
    (h : i.command? = some c) : refusedIn i own phase ↔ own.isOwned = false ∨ phase ≠ .idle := by
  have hinit : ∀ bus pin, i ≠ .init bus pin := by
    rintro bus pin rfl
    cases h
  simp [refusedIn, h, hinit]

/-- ENCODE is never refused (41_framer.md R146). -/
theorem not_refusedIn_of_encodeOperands? (i : Instr) (x : CommandKind × Channel × Value) (own : Ownership)
    (phase : Phase) (h : i.encodeOperands? = some x) : ¬ refusedIn i own phase := by
  cases i <;> cases h <;> simp [refusedIn, Instr.command?]

/-- INIT is refused exactly while owned (decision D16). -/
theorem refusedIn_init (bus : BusCap) (pin : PinCap) (own : Ownership) (phase : Phase) :
    refusedIn (.init bus pin) own phase ↔ own.isOwned = true := by
  simp [refusedIn, Instr.command?]

/-- RELEASE is refused unless the block is owned and Idle (60_exceptions.md R179). -/
theorem refusedIn_release (own : Ownership) (phase : Phase) :
    refusedIn .release own phase ↔ own.isOwned = false ∨ phase ≠ .idle := by
  simp [refusedIn]

/-- Every request answers a next state (60_exceptions.md R172). -/
theorem exec_answers (i : Instr) (s : State) : ∃ t, exec i s = .next t := by
  rcases instr_class i with ⟨op, f, h⟩ | ⟨k, a, v, h⟩ | ⟨bus, pin, rfl⟩ | rfl
  · exact ⟨_, exec_command i op f s h⟩
  · exact ⟨_, exec_encode i k a v s h⟩
  · exact ⟨_, rfl⟩
  · exact ⟨_, rfl⟩

/-- A refused request only sets the mark (41_framer.md R147). -/
theorem exec_of_refusedIn (i : Instr) (s : State) (hr : refusedIn i s.own s.phase) :
    exec i s = .next { s with refused := true } := by
  obtain ⟨t, ht⟩ := exec_answers i s
  rcases exec_cases i s t ht with ⟨op, f, hc, ho, hp, -⟩ | ⟨k, a, v, he, -⟩ | ⟨bus, pin, rfl, ho, -⟩ |
    ⟨bus, pin, rfl, ho, hp, -⟩ | ⟨-, rfl⟩
  · simp [refusedIn_of_command? i _ _ _ hc, ho, hp] at hr
  · exact absurd hr (not_refusedIn_of_encodeOperands? i _ _ _ he)
  · simp [refusedIn_init, ho] at hr
  · simp [refusedIn_release, ho, hp] at hr
  · exact ht

/-- INIT of a block that is not owned constructs it (41_framer.md R130). -/
theorem exec_init (bus : BusCap) (pin : PinCap) (s : State) (ho : s.own.isOwned = false) :
    exec (.init bus pin) s = .next (s.construct bus pin) := by
  rcases gated_construct_spec bus pin s with ⟨-, h⟩ | ⟨ho', -⟩
  · exact congrArg Host.Outcome.next h
  · simp [ho] at ho'

/-- RELEASE of an owned, Idle block gives its capabilities back (41_framer.md R145). -/
theorem exec_release (bus : BusCap) (pin : PinCap) (s : State) (ho : s.own = .owned bus pin)
    (hp : s.phase = .idle) :
    exec .release s =
      .next (({ s with own := .released } : State).respond .release (.caps bus pin)) := by
  rcases gated_giveBack_spec s with ⟨bus', pin', ho', -, h⟩ | ⟨hnot | hnot, -⟩
  · obtain ⟨rfl, rfl⟩ := Ownership.owned.inj (ho.symm.trans ho')
    exact congrArg Host.Outcome.next h
  · simp [ho] at hnot
  · exact absurd hp hnot

/-- A step with a request at the port is exec of the request (41_framer.md R149). -/
theorem step_of_request (s : State) (i : Instr) (h : s.offer = .request i) : step s = exec i s.take := by
  simp [step, h]

/-- A step with bytes at the port that are no request sets the mark (41_framer.md R147). -/
theorem step_of_outOfSet (s : State) (h : s.offer = .outOfSet) :
    step s = .next { s.take with refused := true } := by
  simp [step, h, State.refuse]

theorem offer_of_cons (s : State) (slot : Arrival) (rest : List Arrival) (h : s.arrivals = slot :: rest) :
    s.offer = slot.offer := by
  simp [State.offer, h]

theorem take_of_cons (s : State) (slot : Arrival) (rest : List Arrival) (h : s.arrivals = slot :: rest) :
    s.take = { s with arrivals := rest, resp := none } := by
  simp [State.take, h]

theorem offer_bytes_of_ok (bs : List Byte) (i : Instr) (h : decode bs = .ok i) :
    (Arrival.bytes bs).offer = .request i := by
  simp [Arrival.offer, h]

theorem offer_bytes_of_error (bs : List Byte) (e : DecodeReject) (h : decode bs = .error e) :
    (Arrival.bytes bs).offer = .outOfSet := by
  simp [Arrival.offer, h]

/-- INIT's events: the set-high, then its response (41_framer.md R130). -/
theorem construct_trace (bus : BusCap) (pin : PinCap) (s : State) :
    (s.construct bus pin).trace = s.trace ++ [.pin .high s.pinDraw, .resp .init .ok] := by
  simp [State.construct]

/-- No slot with a request is pending, so none is at the port now (41_framer.md R150). -/
theorem noRequestPending_quietFor (n : Nat) (s : State) (h : s.noRequestPending = true) :
    s.quietFor n = true :=
  List.all_eq_true.2 fun a ha => List.all_eq_true.1 h a (List.mem_of_mem_take ha)

theorem noRequestPending_offer (s : State) (h : s.noRequestPending = true) : s.offer = .nothing :=
  ((quietFor_succ 0 s).1 (noRequestPending_quietFor 1 s h)).1

theorem noRequestPending_take (s : State) (h : s.noRequestPending = true) :
    s.take.noRequestPending = true :=
  List.all_eq_true.2 fun a ha => List.all_eq_true.1 h a (List.mem_of_mem_tail ha)

end Sys2Proof.Machine
end

section
/-! PROOF of O18, O19, O21, O22, O23 and O24: what the requests do (41_framer.md R130 to R147,
60_exceptions.md R179). -/

namespace Sys2Proof.Machine

/-- Settles O18: the block is constructed, and the set-high decides the line. -/
theorem initConstructs : Obligations.InitConstructs := by
  intro bus pin s ho
  have hok : s.pinDraw = .ok → (s.construct bus pin).cs = .high := pinSet_cs_of_ok .high s
  have herr : ∀ p, s.pinDraw = .err p → (s.construct bus pin).cs = s.levelDraw :=
    pinSet_cs_of_err .high s
  exact ⟨s.construct bus pin, exec_init bus pin s ho, rfl, rfl, hok, herr, construct_trace bus pin s,
    rfl, rfl, rfl, rfl, rfl, rfl⟩

/-- Settles O19: each data request is a per-command request with the format G frame of its kind. -/
theorem dataRequestsSendTheirFrame : Obligations.DataRequestsSendTheirFrame := by
  intro a v
  refine ⟨?writeInput, ?updateDac, ?writeInputUpdateAll, ?writeUpdateChannel⟩
  case writeInput => exact sendsInOneFramedWrite_of_command? _ _ _ rfl
  case updateDac => exact sendsInOneFramedWrite_of_command? _ _ _ rfl
  case writeInputUpdateAll => exact sendsInOneFramedWrite_of_command? _ _ _ rfl
  case writeUpdateChannel => exact sendsInOneFramedWrite_of_command? _ _ _ rfl

/-- Settles O21: the gate lets RELEASE through, and only ownership, trace and response port change. -/
theorem releaseReturnsCapabilities : Obligations.ReleaseReturnsCapabilities :=
  fun bus pin s ho hp => exec_release bus pin s ho hp

/-- Settles O22: the first step constructs, the second gives the same capabilities back; neither of them but
the set-high moves the line. -/
theorem initThenReleaseReturnsTheSameCapabilities :
    Obligations.InitThenReleaseReturnsTheSameCapabilities := by
  intro bus pin s rest ho harr
  have hinit : step s = .next (s.take.construct bus pin) := by
    rw [step_of_request s _ (offer_of_cons s _ _ harr), exec_init bus pin s.take ho]
  have harr' : (s.take.construct bus pin).arrivals = .term .release :: rest :=
    congrArg List.tail harr
  have hrelease := (step_of_request _ _ (offer_of_cons _ _ _ harr')).trans
    (exec_release bus pin (s.take.construct bus pin).take rfl rfl)
  have hcs : s.pinDraw = .ok → (s.take.construct bus pin).cs = .high := pinSet_cs_of_ok .high s.take
  refine ⟨_, ⟨_, hinit, _, hrelease, rfl⟩, rfl, rfl, ?_, hcs, rfl, congrArg List.tail harr'⟩
  simp [construct_trace]

/-- Settles O23: a refused request only sets the mark, and none of the other acts touches it. -/
theorem refusalOnlySetsTheMark : Obligations.RefusalOnlySetsTheMark := by
  intro i s
  refine ⟨exec_of_refusedIn i s, fun hnot => ?_⟩
  obtain ⟨t, ht⟩ := exec_answers i s
  refine ⟨t, ht, ?_⟩
  rcases exec_cases i s t ht with ⟨op, f, -, -, -, rfl⟩ | ⟨k, a, v, -, rfl⟩ | ⟨bus, pin, -, -, rfl⟩ |
    ⟨bus, pin, -, -, -, rfl⟩ | ⟨hr, -⟩
  · rfl
  · rfl
  · rfl
  · rfl
  · exact absurd hr hnot

/-- The requests that are no ENCODE request are the framer's (10_state.md R30). -/
theorem encodeOperands?_eq_none (i : Instr) :
    i.encodeOperands? = none ↔
      (i.command?.isSome = true ∨ i = .release) ∨ ∃ bus pin, i = .init bus pin := by
  cases i <;> simp [Instr.encodeOperands?, Instr.command?]

/-- Settles O24: the two clauses of refusal, in each row of the table. -/
theorem refusalTable : Obligations.RefusalTable := by
  intro i phase bus pin
  refine ⟨?unconstructed, ?released, ?idle, fun hp => ?busy⟩
  case unconstructed => simp [refusedIn]
  case released => simp [refusedIn]
  case idle => simp [refusedIn]
  case busy => simp [refusedIn, hp, encodeOperands?_eq_none]

end Sys2Proof.Machine
end

section
/-! PROOF of O26, O28, O29 and O30: the Write step, the hang, the end of an operation and its response
(41_framer.md R133 to R137, R150). -/

namespace Sys2Proof.Machine

/-- Settles O26: the Write step is the bus call with the latched frame. -/
theorem writeStepMakesOneBusCall : Obligations.WriteStepMakesOneBusCall :=
  fun s br ho hp hq hr => step_of_write s br ho hp hq hr

/-- `s` after `n` steps that do nothing but take a slot (log 9). -/
def State.afterWaiting (n : Nat) (s : State) : State :=
  { s with arrivals := s.arrivals.drop n, resp := if n = 0 then s.resp else none }

theorem afterWaiting_succ (n : Nat) (s : State) : s.take.afterWaiting n = s.afterWaiting (n + 1) := by
  simp [State.afterWaiting, State.take]

/-- A hang is a Write phase, owned, whose bus call does not return (41_framer.md R135). -/
theorem hung_iff (s : State) :
    s.hung = true ↔ s.own.isOwned = true ∧ s.phase = .write ∧ s.busDraw = .never := by
  simp [State.hung, and_assoc]

/-- A hung step without a request only takes its slot (41_framer.md R135). -/
theorem step_of_hung (s : State) (hh : s.hung = true) (hq : s.offer = .nothing) :
    step s = .next s.take := by
  obtain ⟨ho, hp, hb⟩ := (hung_iff s).1 hh
  obtain ⟨bus, pin, hown⟩ := (isOwned_iff _).1 ho
  simp [step_of_no_request s hq, State.advance, State.writeStep, hown, hp, hb]

/-- A hung block waits for any number of steps (41_framer.md R135). -/
theorem stepsTo_afterWaiting (n : Nat) (s : State) (hh : s.hung = true)
    (hq : s.noRequestPending = true) : stepsTo n s (s.afterWaiting n) := by
  induction n generalizing s with
  | zero => exact rfl
  | succ n ih =>
    rw [← afterWaiting_succ]
    exact ⟨s.take, step_of_hung s hh (noRequestPending_offer s hq),
      ih s.take hh (noRequestPending_take s hq)⟩

/-- Settles O28, by induction on the number of steps. -/
theorem hangPersists : Obligations.HangPersists := by
  intro n s hh hq
  obtain ⟨ho, hp, -⟩ := (hung_iff s).1 hh
  have hrun : (s.afterWaiting n).runEnded = false := by simp [State.runEnded, State.afterWaiting, ho, hp]
  have hresp : 0 < n → (s.afterWaiting n).resp = none := fun hn => if_neg hn.ne'
  exact ⟨s.afterWaiting n, stepsTo_afterWaiting n s hh hq, hp, rfl, rfl, rfl, rfl, rfl, hh, hrun, hresp⟩

/-- Settles O29: the three steps of the framed write, after which no slot holds a request. -/
theorem operationEndsWhenBusReturns : Obligations.OperationEndsWhenBusReturns := by
  intro s br ho hp hq hbr
  have hsteps := stepsTo_operationEnd s br ho hp (noRequestPending_quietFor 3 s hq) hbr
  have hpending : (s.operationEnd br).noRequestPending = true :=
    noRequestPending_take _ (noRequestPending_take _ (noRequestPending_take s hq))
  have hphase : (s.operationEnd br).phase = .idle := rfl
  exact ⟨s.operationEnd br, hsteps, by simp [State.runEnded, hpending, hphase], rfl⟩

/-- Settles O30: either run ends in its operation's end, whose response is the bus result. -/
theorem pinErrorsNeverSurface : Obligations.PinErrorsNeverSurface := by
  intro i op f s s' u u' br bs bs' hi ho hp ho' hp' hoffer hoffer' hquiet hquiet' hbus hbus' hrun hrun'
  obtain rfl := stepsTo_unique 4 s _ _ hrun (stepsTo_of_command i op f s br bs hi ho hp hoffer hquiet hbus)
  obtain rfl :=
    stepsTo_unique 4 s' _ _ hrun' (stepsTo_of_command i op f s' br bs' hi ho' hp' hoffer' hquiet' hbus')
  exact ⟨rfl, rfl⟩

end Sys2Proof.Machine
end

section
/-! PROOF of O32 to O35: the step by what is at the port (41_framer.md R149, 60_exceptions.md R172, R178). -/

namespace Sys2Proof.Machine

/-- Settles O32: the three forms of the first slot offer the request. -/
theorem stepRunsTheOfferedRequest : Obligations.StepRunsTheOfferedRequest := by
  intro s i bs rest
  refine ⟨fun harr => ?term, fun harr hdec => ?bytes, fun nbits w hdec => ?word⟩
  case term =>
    rw [step_of_request s i (offer_of_cons s _ _ harr), take_of_cons s _ _ harr]
  case bytes =>
    have hoffer : s.offer = .request i := (offer_of_cons s _ _ harr).trans (offer_bytes_of_ok bs i hdec)
    rw [step_of_request s i hoffer, take_of_cons s _ _ harr]
  case word =>
    have hbytes : decode (tableBytes nbits w) = .ok i := by
      unfold decodeTableWord at hdec
      cases h : decode (tableBytes nbits w) with
      | error e => simp [h, Except.toOption] at hdec
      | ok j => exact congrArg Except.ok (by simpa [h, Except.toOption] using hdec)
    exact step_of_request (s.withFetchWord nbits w) i (offer_bytes_of_ok _ i hbytes)

/-- Settles O33: such bytes offer nothing in the set. -/
theorem outOfSetBytesAreRefused : Obligations.OutOfSetBytesAreRefused := by
  intro s bs rest e harr hdec
  have hoffer : s.offer = .outOfSet := (offer_of_cons s _ _ harr).trans (offer_bytes_of_error bs e hdec)
  rw [step_of_outOfSet s hoffer, take_of_cons s _ _ harr]

/-- A block that is not owned or is Idle does not advance (60_exceptions.md R178). -/
theorem advance_of_not_owned_or_idle (s : State) (h : s.own.isOwned = false ∨ s.phase = .idle) :
    s.advance = s := by
  rcases advance_spec s with ⟨-, e⟩ | ⟨ho, hp, -⟩ | ⟨r, ho, hp, -, -⟩ | ⟨ho, hp, -⟩
  · exact e
  all_goals simp [ho, hp] at h

/-- Settles O34: the block does not advance, so only the slot is taken. -/
theorem nothingHappensWithoutARequest : Obligations.NothingHappensWithoutARequest := by
  intro s hq h
  rw [step_of_no_request s hq, advance_of_not_owned_or_idle s.take h]
  rfl

/-- Settles O35: by what is at the port. -/
theorem noStepFaults : Obligations.NoStepFaults := by
  refine ⟨fun s => ?_, exec_answers⟩
  cases h : s.offer with
  | nothing => exact ⟨_, step_of_no_request s h⟩
  | request i =>
    rw [step_of_request s i h]
    exact exec_answers i s.take
  | outOfSet => exact ⟨_, step_of_outOfSet s h⟩

end Sys2Proof.Machine
end

section
/-! PROOF of O36 and O37: the machine's step and the step relation of 41_framer.md R149 agree. First what each act
of a step leaves of the block, then one direction by the cases of a step and the other by the rules of the
relation. -/

namespace Sys2Proof.Machine

/-- The line takes the level of a set that returned Ok (10_state.md R29). -/
theorem levelAfter_of_ok (want drawn : Level) (pr : PinResult) (h : pr = .ok) :
    levelAfter want pr drawn = want := by
  simp [h]

/-- A drawn level that is the wanted one after Ok is the level after the set (10_state.md R29). -/
theorem levelAfter_eq_drawn (want level : Level) (pr : PinResult) (h : pr = .ok → level = want) :
    levelAfter want pr level = level := by
  cases pr with
  | ok => exact (h rfl).symm
  | err p => rfl

/-! ### The block after each act -/

theorem construct_block (bus : BusCap) (pin : PinCap) (s : State) :
    (s.construct bus pin).block =
      { s.block with
        own := .owned bus pin, phase := .idle, cs := levelAfter .high s.pinDraw s.levelDraw
        frameReg := (s.construct bus pin).frameReg, wres := (s.construct bus pin).wres
        trace := s.trace ++ [.pin .high s.pinDraw, .resp .init .ok]
        resp := some (.framer .init .ok) } := by
  rw [← construct_trace bus pin]
  rfl

theorem deassertStep_block (s : State) :
    s.deassertStep.block =
      { s.block with
        cs := levelAfter .high s.pinDraw s.levelDraw, phase := .idle
        frameReg := s.deassertStep.frameReg, wres := s.deassertStep.wres
        trace := s.trace ++ [.pin .high s.pinDraw, .resp (.command s.opReg) (responseOf s.wres)]
        resp := some (.framer (.command s.opReg) (responseOf s.wres)) } := by
  rw [← deassertStep_trace]
  rfl

/-! ### The machine's steps are steps of the relation -/

/-- Settles O36, by the cases of a step; the draws are the ones the step made. -/
theorem stepRefinesTheRelation : Obligations.StepRefinesTheRelation := by
  intro s t h
  rcases step_inversion s t h with ⟨hq, hw, rfl⟩ | ⟨hq, ho, hp, rfl⟩ | ⟨r, hq, ho, hp, -, rfl⟩ |
    ⟨hq, ho, hp, rfl⟩ | ⟨i, op, f, hi, hc, ho, hp, rfl⟩ | ⟨i, k, a, v, hi, he, rfl⟩ |
    ⟨bus, pin, hi, ho, rfl⟩ | ⟨bus, pin, hi, ho, hp, rfl⟩ | ⟨⟨i, hi, hr⟩ | hi, rfl⟩
  · exact .inr ⟨hq, hw, rfl⟩
  · rw [hq]
    exact .inl (.assert s.block s.pinDraw _ ho hp (levelAfter_of_ok .low s.levelDraw s.pinDraw))
  · rw [hq]
    exact .inl (.write s.block r ho hp)
  · rw [hq, deassertStep_block]
    exact .inl (.deassert s.block s.pinDraw _ _ _ ho hp (levelAfter_of_ok .high s.levelDraw s.pinDraw))
  · rw [hi]
    exact .inl (.accept s.block i op f hc ho hp)
  · rw [hi]
    exact .inl (.encode s.block i k a v he)
  · rw [hi, construct_block]
    exact .inl (.init s.block bus pin s.pinDraw _ _ _ ho (levelAfter_of_ok .high s.levelDraw s.pinDraw))
  · rw [hi]
    exact .inl (.release s.block bus pin ho hp)
  · rw [hi]
    exact .inl (.refuse s.block i hr)
  · rw [hi]
    exact .inl (.refuseOutOfSet s.block)

/-! ### The relation's steps are steps of the machine -/

/-- A state with the given block, offering `a` at the port and then nothing, with the given external answers. -/
def Block.toState (b : Block) (a : Arrival) (pins : List PinResult) (levels : List Level)
    (buses : List BusAnswer) : State where
  own := b.own
  phase := b.phase
  frameReg := b.frameReg
  wres := b.wres
  trace := b.trace
  cs := b.cs
  refused := b.refused
  opReg := b.opReg
  resp := b.resp
  arrivals := [a]
  pinAnswers := pins
  levelAnswers := levels
  busAnswers := buses
  draws := 0

/-- Some state with the block `b` and the offer `o` takes a step to the block `c`, up to the latches where no rule
reads them. -/
def realised (o : Offer) (b c : Block) : Prop :=
  ∃ s t : State, s.block = b ∧ s.offer = o ∧ step s = .next t ∧ t.block.same c

theorem same_refl (b : Block) : b.same b :=
  ⟨rfl, rfl, rfl, rfl, rfl, rfl, rfl, fun _ => ⟨rfl, rfl⟩⟩

theorem realised_init (b : Block) (bus : BusCap) (pin : PinCap) (pr : PinResult) (level : Level)
    (f : Frame) (w : BusResult) (ho : b.own.isOwned = false) (hl : pr = .ok → level = .high) :
    realised (.request (.init bus pin)) b
      { b with
        own := .owned bus pin, phase := .idle, cs := level, frameReg := f, wres := w
        trace := b.trace ++ [.pin .high pr, .resp .init .ok]
        resp := some (.framer .init .ok) } := by
  have hcs := levelAfter_eq_drawn .high level pr hl
  have hstep := (step_of_request (b.toState (.term (.init bus pin)) [pr] [level] []) _ rfl).trans
    (exec_init bus pin _ ho)
  refine ⟨_, _, rfl, rfl, hstep, ?_⟩
  rw [construct_block]
  exact ⟨rfl, rfl, rfl, hcs, rfl, rfl, rfl, fun hne => absurd rfl hne⟩

theorem realised_accept (b : Block) (i : Instr) (op : PerCommand) (f : Frame)
    (hi : i.command? = some (op, f)) (ho : b.own.isOwned = true) (hp : b.phase = .idle) :
    realised (.request i) b { b with frameReg := f, opReg := op, phase := .assert, resp := none } :=
  ⟨b.toState (.term i) [] [] [], _, rfl, rfl, step_of_command i op f _ hi ho hp rfl, same_refl _⟩

theorem realised_assert (b : Block) (pr : PinResult) (level : Level) (ho : b.own.isOwned = true)
    (hp : b.phase = .assert) (hl : pr = .ok → level = .low) :
    realised .nothing b
      { b with cs := level, phase := .write, trace := b.trace ++ [.pin .low pr], resp := none } := by
  have hcs := levelAfter_eq_drawn .low level pr hl
  exact ⟨b.toState .quiet [pr] [level] [], _, rfl, rfl, step_of_assert _ ho hp rfl,
    rfl, rfl, rfl, hcs, rfl, rfl, rfl, fun _ => ⟨rfl, rfl⟩⟩

theorem realised_write (b : Block) (br : BusResult) (ho : b.own.isOwned = true) (hp : b.phase = .write) :
    realised .nothing b
      { b with
        wres := br, phase := .deassert, trace := b.trace ++ [.bus b.frameReg br], resp := none } :=
  ⟨b.toState .quiet [] [] [.returns br], _, rfl, rfl, step_of_write _ br ho hp rfl rfl, same_refl _⟩

theorem realised_deassert (b : Block) (pr : PinResult) (level : Level) (f : Frame) (w : BusResult)
    (ho : b.own.isOwned = true) (hp : b.phase = .deassert) (hl : pr = .ok → level = .high) :
    realised .nothing b
      { b with
        cs := level, phase := .idle, frameReg := f, wres := w
        trace := b.trace ++ [.pin .high pr, .resp (.command b.opReg) (responseOf b.wres)]
        resp := some (.framer (.command b.opReg) (responseOf b.wres)) } := by
  have hcs := levelAfter_eq_drawn .high level pr hl
  refine ⟨b.toState .quiet [pr] [level] [], _, rfl, rfl, step_of_deassert _ ho hp rfl, ?_⟩
  rw [deassertStep_block]
  exact ⟨rfl, rfl, rfl, hcs, rfl, rfl, rfl, fun hne => absurd rfl hne⟩

theorem realised_release (b : Block) (bus : BusCap) (pin : PinCap) (ho : b.own = .owned bus pin)
    (hp : b.phase = .idle) :
    realised (.request .release) b
      { b with
        own := .released
        trace := b.trace ++ [.resp .release (.caps bus pin)]
        resp := some (.framer .release (.caps bus pin)) } :=
  ⟨b.toState (.term .release) [] [] [], _, rfl, rfl,
    (step_of_request _ _ rfl).trans (exec_release bus pin _ ho hp), same_refl _⟩

theorem realised_encode (b : Block) (i : Instr) (k : CommandKind) (a : Channel) (v : Value)
    (hi : i.encodeOperands? = some (k, a, v)) :
    realised (.request i) b { b with resp := some (.frame (encodeFrame k a v)) } :=
  ⟨b.toState (.term i) [] [] [], _, rfl, rfl,
    (step_of_request _ _ rfl).trans (exec_encode i k a v _ hi), same_refl _⟩

theorem realised_refuse (b : Block) (i : Instr) (hr : refusedIn i b.own b.phase) :
    realised (.request i) b { b with refused := true, resp := none } :=
  ⟨b.toState (.term i) [] [] [], _, rfl, rfl,
    (step_of_request _ _ rfl).trans (exec_of_refusedIn i _ hr), same_refl _⟩

theorem realised_refuseOutOfSet (b : Block) :
    realised .outOfSet b { b with refused := true, resp := none } :=
  ⟨b.toState (.bytes []) [] [] [], _, rfl, rfl, step_of_outOfSet _ rfl, same_refl _⟩

/-- Settles O37, rule by rule: from the state with the block whose scripted answers are the rule's draws. -/
theorem relationIsRealised : Obligations.RelationIsRealised := by
  intro o b c hstep
  cases hstep with
  | init _ bus pin pr level f w ho hl => exact realised_init b bus pin pr level f w ho hl
  | accept _ i op f hi ho hp => exact realised_accept b i op f hi ho hp
  | assert _ pr level ho hp hl => exact realised_assert b pr level ho hp hl
  | write _ br ho hp => exact realised_write b br ho hp
  | deassert _ pr level f w ho hp hl => exact realised_deassert b pr level f w ho hp hl
  | release _ bus pin ho hp => exact realised_release b bus pin ho hp
  | encode _ i k a v hi => exact realised_encode b i k a v hi
  | refuse _ i hr => exact realised_refuse b i hr
  | refuseOutOfSet => exact realised_refuseOutOfSet b

end Sys2Proof.Machine
end

section
/-! PROOF of O39 and O40: every step keeps the chip-select invariant (10_state.md R38, 70_reset_and_hazards.md
R205). First which events keep "every pin call returned Ok", then what the invariant says by ownership, then one
lemma for each act that calls the pin or changes ownership or phase. -/

namespace Sys2Proof.Machine

/-! ### "Every pin call so far has returned Ok" -/

theorem pinSet_allPinsOk (level : Level) (s : State) :
    (s.pinSet level).allPinsOk = true ↔ s.allPinsOk = true ∧ s.pinDraw = .ok := by
  cases h : s.pinDraw <;> simp [State.allPinsOk, Event.pinOk, h]

theorem busWrite_allPinsOk (f : Frame) (r : BusResult) (s : State) :
    (s.busWrite f r).allPinsOk = s.allPinsOk := by
  simp [State.allPinsOk, Event.pinOk]

theorem respond_allPinsOk (op : FramerOp) (r : FramerResult) (s : State) :
    (s.respond op r).allPinsOk = s.allPinsOk := by
  simp [State.allPinsOk, Event.pinOk]

/-- After a set, if no pin call has failed, the line has the level that was set (10_state.md R29). -/
theorem pinSet_cs_of_allPinsOk (level : Level) (s : State) (h : (s.pinSet level).allPinsOk = true) :
    (s.pinSet level).cs = level :=
  pinSet_cs_of_ok level s ((pinSet_allPinsOk level s).1 h).2

/-! ### What the invariant says, by ownership -/

theorem lineInv_unconstructed (s : State) (ho : s.own = .unconstructed) : s.lineInv := by
  simp [State.lineInv, ho]

theorem lineInv_owned (s : State) (ho : s.own.isOwned = true) :
    s.lineInv ↔ (s.allPinsOk = true → s.cs = s.phase.level) := by
  obtain ⟨bus, pin, h⟩ := (isOwned_iff _).1 ho
  simp [State.lineInv, h]

theorem lineInv_released (s : State) (ho : s.own = .released) :
    s.lineInv ↔ (s.allPinsOk = true → s.cs = .high) := by
  simp [State.lineInv, ho]

/-! ### What each act of a step does to the invariant -/

/-- INIT sets the line high and enters Idle (41_framer.md R130). -/
theorem lineInv_construct (bus : BusCap) (pin : PinCap) (s : State) : (s.construct bus pin).lineInv := by
  refine (lineInv_owned _ rfl).2 fun hok => ?_
  have hok' : (s.pinSet .high).allPinsOk = true := (respond_allPinsOk .init .ok _).symm.trans hok
  exact pinSet_cs_of_allPinsOk .high s hok'

/-- RELEASE leaves the line high, where Idle has it (41_framer.md R145). -/
theorem lineInv_release (bus : BusCap) (pin : PinCap) (s : State) (ho : s.own = .owned bus pin)
    (hp : s.phase = .idle) (hs : s.lineInv) :
    (({ s with own := .released } : State).respond .release (.caps bus pin)).lineInv := by
  refine (lineInv_released _ rfl).2 fun hok => ?_
  have hok' : s.allPinsOk = true := (respond_allPinsOk .release (.caps bus pin) _).symm.trans hok
  have hcs := (lineInv_owned s (by simp [ho])).1 hs hok'
  rwa [hp] at hcs

/-- Acceptance leaves the line high, where Idle has it and Assert still wants it (41_framer.md R131). -/
theorem lineInv_latchCommand (op : PerCommand) (f : Frame) (s : State) (ho : s.own.isOwned = true)
    (hp : s.phase = .idle) (hs : s.lineInv) : (s.latchCommand op f).lineInv := by
  refine (lineInv_owned (s.latchCommand op f) ho).2 fun hok => ?_
  have hcs := (lineInv_owned s ho).1 hs hok
  rwa [hp] at hcs

/-- The Assert step sets the line low for the Write phase (41_framer.md R133). -/
theorem lineInv_assertStep (s : State) (ho : s.own.isOwned = true) : s.assertStep.lineInv :=
  (lineInv_owned s.assertStep ho).2 (pinSet_cs_of_allPinsOk .low s)

/-- The Write step leaves the line low for the Deassert phase (41_framer.md R133). -/
theorem lineInv_busWrite (r : BusResult) (s : State) (ho : s.own.isOwned = true)
    (hp : s.phase = .write) (hs : s.lineInv) :
    ({ s.busWrite s.frameReg r with phase := .deassert } : State).lineInv := by
  refine (lineInv_owned { s.busWrite s.frameReg r with phase := .deassert } ho).2 fun hok => ?_
  have hok' : s.allPinsOk = true := (busWrite_allPinsOk s.frameReg r s).symm.trans hok
  have hcs := (lineInv_owned s ho).1 hs hok'
  rwa [hp] at hcs

/-- The Deassert step sets the line high and enters Idle (41_framer.md R133). -/
theorem lineInv_deassertStep (s : State) (ho : s.own.isOwned = true) : s.deassertStep.lineInv := by
  refine (lineInv_owned s.deassertStep ho).2 fun hok => ?_
  have hok' : (s.pinSet .high).allPinsOk = true :=
    (respond_allPinsOk (.command s.opReg) (responseOf s.wres) _).symm.trans hok
  exact pinSet_cs_of_allPinsOk .high s hok'

/-- Settles O39, by the cases of a step; the invariant reads neither the ports nor the refused mark. -/
theorem stepKeepsLineInvariant : Obligations.StepKeepsLineInvariant := by
  intro s t hs h
  have hs' : s.take.lineInv := hs
  rcases step_inversion s t h with ⟨-, -, rfl⟩ | ⟨-, ho, -, rfl⟩ | ⟨r, -, ho, hp, -, rfl⟩ |
    ⟨-, ho, -, rfl⟩ | ⟨i, op, f, -, -, ho, hp, rfl⟩ | ⟨i, k, a, v, -, -, rfl⟩ |
    ⟨bus, pin, -, -, rfl⟩ | ⟨bus, pin, -, ho, hp, rfl⟩ | ⟨-, rfl⟩
  · exact hs'
  · exact lineInv_assertStep s.take ho
  · exact lineInv_busWrite r s.take ho hp hs'
  · exact lineInv_deassertStep s.take ho
  · exact lineInv_latchCommand op f s.take ho hp hs'
  · exact hs'
  · exact lineInv_construct bus pin s.take
  · exact lineInv_release bus pin s.take ho hp hs'
  · exact hs'

/-- Settles O40: the level of each phase, read off the invariant. -/
theorem lineInvariantMeans : Obligations.LineInvariantMeans := by
  intro s hs ho hok
  have hcs := (lineInv_owned s ho).1 hs hok
  exact ⟨fun hp => hcs.trans (congrArg Phase.level hp), fun hp => hcs.trans (congrArg Phase.level hp),
    fun hp => hcs.trans (congrArg Phase.level hp)⟩

end Sys2Proof.Machine
end

section
/-! PROOF of O41: the line follows the last successful pin call (10_state.md R29). -/

namespace Sys2Proof.Machine

/-! The last pin call of a trace, event by event (10_state.md R28, R29). -/

@[simp] theorem lastPin_append_pin (tr : List Event) (level : Level) (r : PinResult) :
    lastPin (tr ++ [.pin level r]) = some (level, r) := by
  simp [lastPin]

@[simp] theorem lastPin_append_bus (tr : List Event) (f : Frame) (r : BusResult) :
    lastPin (tr ++ [.bus f r]) = lastPin tr := by
  simp [lastPin]

@[simp] theorem lastPin_append_resp (tr : List Event) (op : FramerOp) (r : FramerResult) :
    lastPin (tr ++ [.resp op r]) = lastPin tr := by
  simp [lastPin]

/-- A set that returned Ok is the last pin call, and gave the line its level. -/
theorem lineFollowsPin_pinSet (level : Level) (s : State) : (s.pinSet level).lineFollowsPin := by
  intro l hl
  have hlast : some (level, s.pinDraw) = some (l, PinResult.ok) := by simpa using hl
  obtain ⟨rfl, hok⟩ := Prod.mk.inj (Option.some.inj hlast)
  exact pinSet_cs_of_ok level s hok

theorem lineFollowsPin_busWrite (f : Frame) (r : BusResult) (s : State) (hs : s.lineFollowsPin) :
    (s.busWrite f r).lineFollowsPin := by
  intro level hlevel
  exact hs level (by simpa using hlevel)

theorem lineFollowsPin_respond (op : FramerOp) (r : FramerResult) (s : State) (hs : s.lineFollowsPin) :
    (s.respond op r).lineFollowsPin := by
  intro level hlevel
  exact hs level (by simpa using hlevel)

/-- Settles O41, by the cases of a step: only a pin call moves the line, and it ends the trace's pin calls. -/
theorem stepKeepsLineFollowsPin : Obligations.StepKeepsLineFollowsPin := by
  intro s t hs h
  have hs' : s.take.lineFollowsPin := hs
  rcases step_inversion s t h with ⟨-, -, rfl⟩ | ⟨-, -, -, rfl⟩ | ⟨r, -, -, -, -, rfl⟩ |
    ⟨-, -, -, rfl⟩ | ⟨i, op, f, -, -, -, -, rfl⟩ | ⟨i, k, a, v, -, -, rfl⟩ |
    ⟨bus, pin, -, -, rfl⟩ | ⟨bus, pin, -, -, -, rfl⟩ | ⟨-, rfl⟩
  · exact hs'
  · exact lineFollowsPin_pinSet .low s.take
  · exact lineFollowsPin_busWrite s.frameReg r s.take hs'
  · exact lineFollowsPin_respond (.command s.opReg) (responseOf s.wres) _ (lineFollowsPin_pinSet .high s.take)
  · exact hs'
  · exact hs'
  · exact lineFollowsPin_respond .init .ok _ (lineFollowsPin_pinSet .high s.take)
  · exact lineFollowsPin_respond .release (.caps bus pin) _ hs'
  · exact hs'

end Sys2Proof.Machine
end

section
/-! PROOF of O43: a bus call is read only at one place of the grammar, which only a set-low reaches and only a
set-high leaves (95_test_vectors.md S9, 20_memory.md R61). -/

namespace Sys2Proof.Machine

/-- A bus call is read only after a set-low, and only with a frame of 41_framer.md R148. -/
theorem next_bus (p q : TracePoint) (f : Frame) (r : BusResult) (h : p.next (.bus f r) = some q) :
    p = .selected ∧ busFrame f = true ∧ q = .written f r := by
  cases p with
  | selected =>
    by_cases hf : busFrame f = true
    · rw [next_selected_bus f r hf] at h
      exact ⟨rfl, hf, (Option.some.inj h).symm⟩
    · exact absurd ((if_neg hf).symm.trans h) (by simp)
  | _ => cases h

/-- Only a set-low leads to the point before a bus call. -/
theorem next_eq_selected (p : TracePoint) (e : Event) (h : p.next e = some .selected) :
    ∃ pr, e = .pin .low pr := by
  unfold TracePoint.next at h
  split at h
  case h_3 pr => exact ⟨pr, rfl⟩
  case h_5 => split at h <;> cases h
  case h_7 => split at h <;> cases h
  all_goals cases h

/-- Only a set-high is read after a bus call. -/
theorem next_written (f : Frame) (r : BusResult) (e : Event) (q : TracePoint)
    (h : (TracePoint.written f r).next e = some q) : ∃ pr, e = .pin .high pr := by
  cases e with
  | pin level pr =>
    cases level with
    | high => exact ⟨pr, rfl⟩
    | low => cases h
  | bus g x => cases h
  | resp op x => cases h

/-- A trace that stands before a bus call ends in a set-low. -/
theorem eq_append_of_selected (tr : List Event) (h : tracePoint tr = some .selected) :
    ∃ tr' pr, tr = tr' ++ [.pin .low pr] := by
  rcases List.eq_nil_or_concat tr with rfl | ⟨tr', e, rfl⟩
  · cases h
  · rw [List.concat_eq_append] at h ⊢
    obtain ⟨p, -, he⟩ : ∃ p, tracePoint tr' = some p ∧ p.next e = some .selected := by
      simpa [Option.bind_eq_some_iff] using h
    obtain ⟨pr, rfl⟩ := next_eq_selected p e he
    exact ⟨tr', pr, rfl⟩

/-- Settles O43: the reading of the trace goes through the point before the call, and then through the one after. -/
theorem everyBusCallIsBracketed : Obligations.EveryBusCallIsBracketed := by
  intro pre post f r p h
  rw [tracePoint_append, Option.bind_eq_some_iff] at h
  obtain ⟨q, hpre, h⟩ := h
  rw [List.foldlM_cons, Option.bind_eq_bind, Option.bind_eq_some_iff] at h
  obtain ⟨q', hbus, hpost⟩ := h
  obtain ⟨rfl, hf, rfl⟩ := next_bus q q' f r hbus
  refine ⟨hf, eq_append_of_selected pre hpre, ?_⟩
  cases post with
  | nil => exact .inl rfl
  | cons e post =>
    rw [List.foldlM_cons, Option.bind_eq_bind, Option.bind_eq_some_iff] at hpost
    obtain ⟨q'', he, -⟩ := hpost
    obtain ⟨pr, rfl⟩ := next_written f r e q'' he
    exact .inr ⟨pr, post, rfl⟩

end Sys2Proof.Machine
end

section
/-! PROOF of O44 to O47 and O38: what every step keeps of the counts, the mark, the trace, ownership and phase. -/

namespace Sys2Proof.Machine

/-- Outside Deassert, the invariant says the two counts are equal (20_memory.md R57). -/
theorem busCountInv_iff_eq (s : State) (h : s.own.isOwned = false ∨ s.phase ≠ .deassert) :
    s.busCountInv ↔ s.trace.countP Event.isBus = s.trace.countP Event.isCommandResponse := by
  have hnot : ¬ (s.own.isOwned = true ∧ s.phase = .deassert) := by
    rintro ⟨ho, hp⟩
    simp [ho, hp] at h
  simp [State.busCountInv, hnot]

/-- In Deassert the response to one call is still to come (20_memory.md R57). -/
theorem busCountInv_deassert (s : State) (ho : s.own.isOwned = true) (hp : s.phase = .deassert) :
    s.busCountInv ↔ s.trace.countP Event.isBus = s.trace.countP Event.isCommandResponse + 1 := by
  simp [State.busCountInv, ho, hp]

/-- Settles O44, by the cases of a step: the Write step adds the call, the Deassert step its response. -/
theorem stepKeepsOneBusCallPerResponse : Obligations.StepKeepsOneBusCallPerResponse := by
  intro s t hs h
  have hs' : s.take.busCountInv := hs
  rcases step_inversion s t h with ⟨-, -, rfl⟩ | ⟨-, ho, hp, rfl⟩ | ⟨r, -, ho, hp, -, rfl⟩ |
    ⟨-, ho, hp, rfl⟩ | ⟨i, op, f, -, -, ho, hp, rfl⟩ | ⟨i, k, a, v, -, -, rfl⟩ |
    ⟨bus, pin, -, ho, rfl⟩ | ⟨bus, pin, -, ho, hp, rfl⟩ | ⟨-, rfl⟩
  · exact hs'
  · have hcount := (busCountInv_iff_eq s (.inr (by simp [hp]))).1 hs
    refine (busCountInv_iff_eq s.take.assertStep (.inr (by simp [State.assertStep]))).2 ?_
    simpa [State.assertStep, Event.isBus, Event.isCommandResponse] using hcount
  · have hcount := (busCountInv_iff_eq s (.inr (by simp [hp]))).1 hs
    refine (busCountInv_deassert { s.take.busWrite s.frameReg r with phase := .deassert } ho rfl).2 ?_
    simpa [Event.isBus, Event.isCommandResponse] using hcount
  · have hcount := (busCountInv_deassert s ho hp).1 hs
    refine (busCountInv_iff_eq s.take.deassertStep (.inr (by simp [State.deassertStep]))).2 ?_
    simpa [deassertStep_trace, Event.isBus, Event.isCommandResponse] using hcount
  · have hcount := (busCountInv_iff_eq s (.inr (by simp [hp]))).1 hs
    exact (busCountInv_iff_eq (s.take.latchCommand op f) (.inr (by simp))).2 hcount
  · exact hs'
  · have hcount := (busCountInv_iff_eq s (.inl ho)).1 hs
    refine (busCountInv_iff_eq (s.take.construct bus pin) (.inr (by simp [State.construct]))).2 ?_
    simpa [construct_trace, Event.isBus, Event.isCommandResponse] using hcount
  · have hcount := (busCountInv_iff_eq s (.inr (by simp [hp]))).1 hs
    refine (busCountInv_iff_eq _ (.inl rfl)).2 ?_
    simpa [Event.isBus, Event.isCommandResponse] using hcount
  · exact hs'

/-- Settles O45, by the cases of a step. -/
theorem markAndTraceOnlyGrow : Obligations.MarkAndTraceOnlyGrow := by
  intro s t h
  have hsame : ∃ es, s.trace = s.trace ++ es := ⟨[], (List.append_nil _).symm⟩
  rcases step_inversion s t h with ⟨-, -, rfl⟩ | ⟨-, -, -, rfl⟩ | ⟨r, -, -, -, -, rfl⟩ |
    ⟨-, -, -, rfl⟩ | ⟨i, op, f, -, -, -, -, rfl⟩ | ⟨i, k, a, v, -, -, rfl⟩ |
    ⟨bus, pin, -, -, rfl⟩ | ⟨bus, pin, -, -, -, rfl⟩ | ⟨-, rfl⟩
  · exact ⟨id, hsame⟩
  · exact ⟨id, _, rfl⟩
  · exact ⟨id, _, rfl⟩
  · exact ⟨id, _, deassertStep_trace s.take⟩
  · exact ⟨id, hsame⟩
  · exact ⟨id, hsame⟩
  · exact ⟨id, _, construct_trace bus pin s.take⟩
  · exact ⟨id, _, rfl⟩
  · exact ⟨fun _ => rfl, hsame⟩

/-- Settles O46, by the cases of a step: all others leave ownership as it is. -/
theorem ownershipChangesOnlyByInitAndRelease : Obligations.OwnershipChangesOnlyByInitAndRelease := by
  intro s t h hne
  rcases step_inversion s t h with ⟨-, -, rfl⟩ | ⟨-, -, -, rfl⟩ | ⟨r, -, -, -, -, rfl⟩ |
    ⟨-, -, -, rfl⟩ | ⟨i, op, f, -, -, -, -, rfl⟩ | ⟨i, k, a, v, -, -, rfl⟩ |
    ⟨bus, pin, hi, ho, rfl⟩ | ⟨bus, pin, hi, ho, hp, rfl⟩ | ⟨-, rfl⟩
  · exact absurd rfl hne
  · exact absurd rfl hne
  · exact absurd rfl hne
  · exact absurd rfl hne
  · exact absurd rfl hne
  · exact absurd rfl hne
  · exact .inl ⟨bus, pin, hi, ho, rfl⟩
  · exact .inr ⟨hi, by simp [ho], hp, rfl⟩
  · exact absurd rfl hne

/-- Settles O47, by the cases of a step: INIT is refused while owned, and all others but the four of the framed
write leave the phase as it is. -/
theorem phaseFollowsItsOrder : Obligations.PhaseFollowsItsOrder := by
  intro s t hown h hne
  rcases step_inversion s t h with ⟨-, -, rfl⟩ | ⟨-, -, hp, rfl⟩ | ⟨r, -, -, hp, -, rfl⟩ |
    ⟨-, -, hp, rfl⟩ | ⟨i, op, f, -, -, -, hp, rfl⟩ | ⟨i, k, a, v, -, -, rfl⟩ |
    ⟨bus, pin, -, ho, rfl⟩ | ⟨bus, pin, -, -, -, rfl⟩ | ⟨-, rfl⟩
  · exact absurd rfl hne
  · exact .inr (.inl ⟨hp, rfl⟩)
  · exact .inr (.inr (.inl ⟨hp, rfl⟩))
  · exact .inr (.inr (.inr ⟨hp, rfl⟩))
  · exact .inl ⟨hp, rfl⟩
  · exact absurd rfl hne
  · exact absurd (hown.symm.trans ho) (by decide)
  · exact absurd rfl hne
  · exact absurd rfl hne

/-- Settles O38: no call has been made and no trace written. -/
theorem resetState : Obligations.ResetState := by
  have hline : State.reset.lineInv := lineInv_unconstructed _ rfl
  have hfollows : State.reset.lineFollowsPin := fun _ h => absurd h (by simp [State.reset, lastPin])
  have htrace : State.reset.traceInv := (traceInv_not_owned _ rfl).2 rfl
  have hcount : State.reset.busCountInv := (busCountInv_iff_eq _ (.inl rfl)).2 rfl
  exact ⟨rfl, rfl, rfl, rfl, hline, hfollows, htrace, hcount⟩

end Sys2Proof.Machine
end
